-- ==== Sys2Proof/Word.lean ====
section
/-! DEFINITION. The widths of SNTPv4-TCE (00_scope.md R7, R8): names for the bit vectors the
other files use, and nothing that computes. -/

namespace Sys2Proof

/-- One byte of a packet buffer (20_memory.md R60). -/
abbrev Byte := BitVec 8

/-- A host address (10_state.md R46: the address space is 8 bits wide). -/
abbrev Addr := BitVec 8

/-- A 32-bit value: a millisecond count, a poll count, a short timestamp, a kiss code. -/
abbrev Half := BitVec 32

/-- The content of a data register and the data of a bus transaction (`XLEN` = 64, R7). -/
abbrev Word := BitVec 64

/-- A bus transaction word (30_encoding.md R80): `kind` [79:72], `addr` [71:64], `data` [63:0]. -/
abbrev BusWord := BitVec 80

end Sys2Proof
end

