-- ==== Sys2Proof/Machine/Binary64.lean ====
section
/-! DEFINITION. IEEE 754 binary64 arithmetic on 64-bit patterns (45_binary64.md). Every finite
pattern is an integer number of UNITS of 2^-1074, so sums, products and quotients are computed
exactly on integers and rounded once (R211, R222). (In products the constant stands first: Lean
unfolds a product along its second factor.) The results for NaN and infinity follow R218;
no reachable state uses them (R214, log 14). -/

namespace Sys2Proof.Machine

/-! ### Format (R210) -/

/-- The sign bit `p[63]`. -/
def f64Sign (p : Word) : Bool := p.getLsbD 63
/-- The biased exponent `p[62:52]`. -/
def f64Exp (p : Word) : Nat := (p.extractLsb' 52 11).toNat
/-- The fraction `p[51:0]`. -/
def f64Frac (p : Word) : Nat := (p.extractLsb' 0 52).toNat

/-- A pattern is finite when `e` ≠ 2047. -/
def f64Finite (p : Word) : Bool := f64Exp p != 2047
/-- NaN: `e` = 2047, `m` ≠ 0. -/
def f64IsNaN (p : Word) : Bool := f64Exp p == 2047 && f64Frac p != 0
/-- Infinity: `e` = 2047, `m` = 0. -/
def f64IsInf (p : Word) : Bool := f64Exp p == 2047 && f64Frac p == 0

/-- How many units of 2^-1074 make the number 1: `real(p)` is `f64Units p / f64One`. -/
def f64One : Nat := 2 ^ 1074

/-- |real(p)| of a finite pattern, in units: zero and subnormal `m`, normal
`(2^52 + m) * 2^(e - 1)`. -/
def f64Mag (p : Word) : Nat :=
  if f64Exp p = 0 then f64Frac p else (2 ^ 52 + f64Frac p) * 2 ^ (f64Exp p - 1)

/-- real(p) of a finite pattern, in units. -/
def f64Units (p : Word) : Int := if f64Sign p then -(f64Mag p : Int) else (f64Mag p : Int)

/-- The pattern with sign `neg` and low 63 bits `low`. -/
def f64Of (neg : Bool) (low : Nat) : Word := BitVec.ofNat 64 ((if neg then 2 ^ 63 else 0) + low)

/-- The low 63 bits of an infinity. -/
def f64InfLow : Nat := 2047 * 2 ^ 52

/-- The infinity of sign `neg`. -/
def f64Inf (neg : Bool) : Word := f64Of neg f64InfLow

/-- The canonical quiet NaN (R218). -/
def f64QNaN : Word := 0x7FF8000000000000#64

/-! ### Rounding (R211) -/

/-- `num / den` to the nearest integer, ties to even. -/
def roundHalfEven (num den : Nat) : Nat :=
  let q := num / den
  let r := num % den
  if 2 * r < den then q else if den < 2 * r then q + 1 else q + q % 2

/-- The low 63 bits of the pattern nearest to `num / den` units: the values of one binade are
`2^k` units apart, `k` = 0 for the subnormals and the first normal binade; from half a step beyond
the largest finite value on, the infinity. -/
def rnLow (num den : Nat) : Nat :=
  let k := (num / den).log2 - 52
  min (2 ^ 52 * k + roundHalfEven num (den * 2 ^ k)) f64InfLow

/-- `RN(r)` for `r` of sign `neg` and magnitude `num / den` units; a zero takes the sign `neg`. -/
def f64RN (neg : Bool) (num den : Nat) : Word := f64Of neg (rnLow num den)

/-! ### Constants (R212) -/

/-- 1.0 -/
abbrev F64_ONE : Word := 0x3FF0000000000000#64
/-- 2.0 -/
abbrev F64_TWO : Word := 0x4000000000000000#64
/-- 1000.0 -/
abbrev F64_1000 : Word := 0x408F400000000000#64
/-- 2^16 -/
abbrev F64_2P16 : Word := 0x40F0000000000000#64
/-- 2^32 -/
abbrev F64_2P32 : Word := 0x41F0000000000000#64

/-! ### Conversion from integers (R213) -/

/-- `u32_to_f64(n)`, exact; 0 gives +0.0. -/
def u32ToF64 (n : Half) : Word := f64RN false (f64One * n.toNat) 1

/-! ### Arithmetic (R215 to R218) -/

/-- The pattern of the opposite sign. -/
def f64Neg (a : Word) : Word := a ^^^ 0x8000000000000000#64

/-- `f64_add` (R215): the exact sum rounded once; an exact zero is +0.0, or -0.0 where both operands
are -0.0. -/
def f64Add (a b : Word) : Word :=
  if f64IsNaN a || f64IsNaN b then f64QNaN
  else if f64IsInf a then
    if f64IsInf b && f64Sign a != f64Sign b then f64QNaN else a
  else if f64IsInf b then b
  else
    let u := f64Units a + f64Units b
    if u = 0 then f64Of (f64Sign a && f64Sign b) 0 else f64RN (decide (u < 0)) u.natAbs 1

/-- `f64_sub` (R215): `real(a) - real(b)` rounded once; an exact zero is +0.0, or -0.0 for
`(-0.0) - (+0.0)`: the sum of `a` and the negation of `b`. -/
def f64Sub (a b : Word) : Word := f64Add a (f64Neg b)

/-- `f64_mul` (R216): the exact product rounded once; the sign is the exclusive or of the signs. -/
def f64Mul (a b : Word) : Word :=
  let neg := f64Sign a ^^ f64Sign b
  if f64IsNaN a || f64IsNaN b then f64QNaN
  else if f64IsInf a || f64IsInf b then
    if (f64IsInf a || f64Mag a != 0) && (f64IsInf b || f64Mag b != 0) then f64Inf neg else f64QNaN
  else f64RN neg (f64Mag a * f64Mag b) f64One

/-- `f64_div` (R216): the exact quotient rounded once; the sign is the exclusive or of the signs.
The block never divides by zero. -/
def f64Div (a b : Word) : Word :=
  let neg := f64Sign a ^^ f64Sign b
  if f64IsNaN a || f64IsNaN b then f64QNaN
  else if f64IsInf a then if f64IsInf b then f64QNaN else f64Inf neg
  else if f64IsInf b then f64Of neg 0
  else if f64Mag b = 0 then if f64Mag a = 0 then f64QNaN else f64Inf neg
  else f64RN neg (f64One * f64Mag a) (f64Mag b)

/-- `f64_floor` (R217): the greatest integer not above `real(a)`, always exact; the integer 0 is
+0.0. -/
def f64Floor (a : Word) : Word :=
  if f64IsNaN a then f64QNaN
  else if f64IsInf a then a
  else
    let n := f64Units a / (f64One : Int)
    f64RN (decide (n < 0)) (f64One * n.natAbs) 1

/-! ### Conversion to integers (R220) -/

/-- `f64_to_uint(a, S, W)`: `trunc(real(a) * 2^S) mod 2^W` for a finite `a`, the product exact,
`trunc` toward zero, a negative integer giving its two's-complement residue; for a NaN or an
infinity any `W`-bit value, here `free`. -/
def f64ToUint (a : Word) (S W : Nat) (free : BitVec W) : BitVec W :=
  if f64Finite a then
    let t := BitVec.ofNat W (2 ^ S * f64Mag a / f64One)
    if f64Sign a then -t else t
  else free

end Sys2Proof.Machine
end

