-- ==== Sys2Proof/Config.lean ====
section
/-! DEFINITION. What is fixed for one SNTPv4-TCE and what its environment may choose: the buffer
geometry (10_state.md R45, R46), the choices of the agents outside the block (00_scope.md R6), and
the free values, which are opaque constants: nothing can be proved of what they are. -/

namespace Sys2Proof

/-- `PKT_LEN` = 48 bytes, the length of each packet buffer (R7, R45). -/
abbrev Config.pktLen : Nat := 48

/-- `TX` = 0x80, the address of TXBUF's first byte (R9, R46). -/
abbrev Config.txBase : Nat := 0x80

/-- `RX` = 0xC0, the address of RXBUF's first byte (R9, R46). -/
abbrev Config.rxBase : Nat := 0xC0

/-- The transport's four answers to the one send of an exchange (10_state.md R52). -/
inductive SendStatus where
  | ok
  | addrFail
  | enqFail
  | finFail
deriving DecidableEq, Repr, Inhabited

/-- What can happen next: a step of one of the four agents of 00_scope.md R6, or the reset, which
comes from outside (70_reset_and_hazards.md R270). -/
inductive Turn where
  /-- The host issues the bus transaction `w`; it waits in the host's queue until it is performed. -/
  | issue (w : BusWord)
  /-- The bus performs the host's oldest transaction, if it is accepted now (R47). -/
  | bus
  /-- The engine takes its enabled step, if it has one (30_encoding.md R91). -/
  | engine
  /-- The transport sets the values its three inputs to the block have from now on (R51 to R53). -/
  | answer (netUp : Bool) (sendStatus : SendStatus) (rx : Option (List Byte))
  /-- The millisecond counter advances by one (R50). -/
  | tick
  /-- The external reset (R270). -/
  | reset
deriving DecidableEq, Repr, Inhabited

/-- FREE VALUE (log 1). Which turn comes next where State's list of turns says nothing: any
interleaving of the agents is allowed (R6), so nothing constrains it. -/
opaque Config.nextTurn : Nat → Turn

/-- FREE VALUE (log 10). The `n`-th unspecified value drawn by a conversion of a NaN or an infinity
to an integer field (45_binary64.md R220, 93_implementation_defined.md U1): "any `W`-bit value". -/
opaque Config.freeValue : Nat → Word

end Sys2Proof
end

