-- ==== Sys2Proof/Syntax.lean ====
section
/-! DEFINITION. The syntax of SNTPv4-TCE: the fourteen instructions (30_encoding.md R92), the two
spaces their codes live in (R85, R90), the bus transactions (R80), and the assembler's lines
(R104 to R106). -/

namespace Sys2Proof

/-- The complete list of instructions (R92): eight host commands (R86) and six engine steps (R91).
No instruction has an operand field: operands are implicit registers (R88). -/
inductive Instr where
  | sec32
  | sec64
  | frac32
  | frac64
  | pack32
  | pack64
  | kisslk
  | gettime
  | send
  | poll
  | validate
  | compute
  | sync
  | wake
deriving DecidableEq, Repr

/-- The code that selects an instruction: a command byte written to CMD (R85), or the value of the
engine's 5-bit selector `SYNCED ‖ RXVALID ‖ STATE` (R90). -/
inductive Code where
  | command (c : Byte)
  | selector (sel : BitVec 5)
deriving DecidableEq, Repr

/-- A host bus transaction (R80): a READ of an address, or a WRITE of 64 bits of data to one. -/
inductive Transaction where
  | read (addr : Addr)
  | write (addr : Addr) (data : Word)
deriving DecidableEq, Repr

/-- Why a code or a bus word is not an instruction or a transaction (R87, R91, R80). -/
inductive Reject where
  /-- The command byte is none of the eight of R86 (R87). -/
  | reservedCommand (c : Byte)
  /-- The selector matches none of the six rows of R91: no engine step is enabled. -/
  | noEngineStep (sel : BitVec 5)
  /-- The word's `kind` is 0x02 to 0xFF: it is not a transaction (R80). -/
  | notATransaction (kind : Byte)
deriving DecidableEq, Repr

/-- The named locations of the assembler (R104): data registers of R21, CSRs of R30, buffer bytes,
numeric addresses. -/
inductive Loc where
  | opa | ops | opf | res | t1 | t2 | t3 | t1r | t2r | t3r | t4r | delay | offset | corr | time
  | state | err | flags | timeout | pollcnt | msstart | msrecv | mspoll | mscomp | mssync
  | sleepms | kiss | kissidx | cmd
  | txbuf (k : Nat)
  | rxbuf (k : Nat)
  | address (addr : Addr)
deriving DecidableEq, Repr

/-- A value operand of `wr` (R104): a 64-bit number, or `f:<decimal>`, the decimal
`± digits / 10^places`. -/
inductive AsmValue where
  | num (v : Word)
  | real (negative : Bool) (digits places : Nat)
deriving DecidableEq, Repr

/-- One line of assembler (R104) or one pseudo-instruction (R105). -/
inductive AsmLine where
  | wr (loc : Loc) (v : AsmValue)
  | rd (loc : Loc)
  | command (i : Instr)
  | sec32 (v : AsmValue)
  | sec64 (v : AsmValue)
  | frac32 (v : AsmValue)
  | frac64 (v : AsmValue)
  | pack32 (s f : AsmValue)
  | pack64 (s f : AsmValue)
  | kisslk (c : AsmValue)
  | settimeout (n : AsmValue)
  | gettime (t : AsmValue)
  /-- `wait`: a loop in the host; its transactions are reads of STATE, one each time round. -/
  | wait
deriving DecidableEq, Repr

/-- One line of the trace syntax (R106): steps of the clock and of the engine, the engine steps with
the draws of the environment that they read. -/
inductive TraceLine where
  | tick (n : Nat)
  | send (netUp : Bool) (status : SendStatus)
  | poll (rx : Option (List Byte))
  | validate
  | compute
  | sync
  | wake
deriving DecidableEq, Repr

/-- The engine steps among the instructions (R91); the others are host commands (R86). -/
def Instr.isEngineStep : Instr → Bool
  | .sec32 => false
  | .sec64 => false
  | .frac32 => false
  | .frac64 => false
  | .pack32 => false
  | .pack64 => false
  | .kisslk => false
  | .gettime => false
  | .send => true
  | .poll => true
  | .validate => true
  | .compute => true
  | .sync => true
  | .wake => true

end Sys2Proof
end

