-- ==== Sys2Proof/WellFormed.lean ====
section
/-! DEFINITION. Which terms of the syntax the spec admits. An instruction has no operand field, so
every `Instr` is well formed; the checks are on the words, the locations and the assembler lines. -/

namespace Sys2Proof

/-- A word the host can issue (30_encoding.md R80): kind 0x00 with zero data, or kind 0x01. -/
def BusWord.wellFormed (w : BusWord) : Bool :=
  (w.extractLsb' 72 8 == 0x00#8 && w.extractLsb' 0 64 == 0#64) || w.extractLsb' 72 8 == 0x01#8

/-- A location the assembler admits (R104): `TXBUF[k]` and `RXBUF[k]` need `k` ≤ 47. -/
def Loc.wellFormed : Loc → Bool
  | .txbuf k => k < Config.pktLen
  | .rxbuf k => k < Config.pktLen
  | _ => true

/-- A command mnemonic stands on a line of its own only for the eight host commands (R104). -/
def AsmLine.wellFormed : AsmLine → Bool
  | .wr loc _ => loc.wellFormed
  | .rd loc => loc.wellFormed
  | .command i => !i.isEngineStep
  | _ => true

/-- A draw of `env.rx` (10_state.md R53): a datagram has at least one byte. -/
def rxWellFormed : Option (List Byte) → Bool
  | none => true
  | some bytes => !bytes.isEmpty

/-- A trace line the trace syntax admits (R106). -/
def TraceLine.wellFormed : TraceLine → Bool
  | .poll rx => rxWellFormed rx
  | _ => true

end Sys2Proof
end

