-- ==== Sys2Proof/Decode.lean ====
section
/-! DEFINITION. Decoding and encoding (30_encoding.md): bus words (R80), command bytes (R85, R86),
the engine's step selector (R90, R91). Decoding is total; what is no instruction is rejected by
name. -/

namespace Sys2Proof

/-! ### The decoder -/

/-- The command map of R86: the byte must match exactly; every other byte is reserved (R87). -/
def decodeCommand (c : Byte) : Except Reject Instr :=
  if c = 0x00#8 then .ok .sec32
  else if c = 0x01#8 then .ok .sec64
  else if c = 0x02#8 then .ok .frac32
  else if c = 0x03#8 then .ok .frac64
  else if c = 0x04#8 then .ok .pack32
  else if c = 0x05#8 then .ok .pack64
  else if c = 0x08#8 then .ok .kisslk
  else if c = 0x10#8 then .ok .gettime
  else .error (.reservedCommand c)

/-- The step map of R91: a step is enabled exactly when `(sel AND mask) = match`. -/
def decodeSelector (sel : BitVec 5) : Except Reject Instr :=
  if sel &&& 0b00111#5 = 0b00001#5 then .ok .send
  else if sel &&& 0b01111#5 = 0b00010#5 then .ok .poll
  else if sel &&& 0b01111#5 = 0b01010#5 then .ok .validate
  else if sel &&& 0b00111#5 = 0b00011#5 then .ok .compute
  else if sel &&& 0b10111#5 = 0b00100#5 then .ok .sync
  else if sel &&& 0b10111#5 = 0b10100#5 then .ok .wake
  else .error (.noEngineStep sel)

/-- The instruction a code selects. -/
def decode : Code → Except Reject Instr
  | .command c => decodeCommand c
  | .selector sel => decodeSelector sel

/-- The fields of a bus word (R80). -/
def busKind (w : BusWord) : Byte := w.extractLsb' 72 8
/-- The address field [71:64] of a bus word (R80). -/
def busAddr (w : BusWord) : Addr := w.extractLsb' 64 8
/-- The data field [63:0] of a bus word (R80). -/
def busData (w : BusWord) : Word := w.extractLsb' 0 64

/-- Decode a bus word (R80): kind 0x00 is READ (its data is ignored), 0x01 is WRITE, and the rest
are not transactions. -/
def decodeBusWord (w : BusWord) : Except Reject Transaction :=
  if busKind w = 0x00#8 then .ok (.read (busAddr w))
  else if busKind w = 0x01#8 then .ok (.write (busAddr w) (busData w))
  else .error (.notATransaction (busKind w))

/-- The host address of `csr.CMD` (10_state.md R39). -/
abbrev cmdAddr : Addr := 0x1F#8

/-- The command byte of a write to CMD: `data[7:0]`; `data[63:8]` is ignored (R85). -/
def commandByte (data : Word) : Byte := data.extractLsb' 0 8

/-- The instruction a transaction issues, if it issues one: a WRITE to CMD of an assigned command
byte (R85, R86). -/
def decodeTransaction : Transaction → Option Instr
  | .read _ => none
  | .write addr data => if addr = cmdAddr then (decodeCommand (commandByte data)).toOption else none

/-! ### The encoder -/

/-- A command byte from the fields of R85: `000 ‖ grp ‖ lk ‖ fn ‖ w`. -/
def commandOfFields (grp lk : BitVec 1) (fn : BitVec 2) (w : BitVec 1) : Byte :=
  (0b000#3 ++ grp ++ lk ++ fn ++ w : BitVec 8)

/-- A selector from the fields of R90: `SYNCED ‖ RXVALID ‖ STATE`. -/
def selectorOf (synced rxvalid : Bool) (state : BitVec 3) : BitVec 5 :=
  (BitVec.ofBool synced ++ BitVec.ofBool rxvalid ++ state : BitVec 5)

/-- The code of an instruction: a command's byte from its fields (R85), an engine step's match value
(R91), whose don't-care bits are zero. -/
def encode : Instr → Code
  | .sec32 => .command (commandOfFields 0 0 0b00 0)
  | .sec64 => .command (commandOfFields 0 0 0b00 1)
  | .frac32 => .command (commandOfFields 0 0 0b01 0)
  | .frac64 => .command (commandOfFields 0 0 0b01 1)
  | .pack32 => .command (commandOfFields 0 0 0b10 0)
  | .pack64 => .command (commandOfFields 0 0 0b10 1)
  | .kisslk => .command (commandOfFields 0 1 0b00 0)
  | .gettime => .command (commandOfFields 1 0 0b00 0)
  | .send => .selector (selectorOf false false 1)
  | .poll => .selector (selectorOf false false 2)
  | .validate => .selector (selectorOf false true 2)
  | .compute => .selector (selectorOf false false 3)
  | .sync => .selector (selectorOf false false 4)
  | .wake => .selector (selectorOf true false 4)

/-- The bus word of a transaction (R80); a READ's data is written as zero. -/
def encodeTransaction : Transaction → BusWord
  | .read addr => (0x00#8 ++ addr ++ 0#64 : BitVec 80)
  | .write addr data => (0x01#8 ++ addr ++ data : BitVec 80)

/-- The bus word that issues command byte `c`: WRITE, CMD, `c` (R85, R104). -/
def encodeCommandWord (c : Byte) : BusWord := encodeTransaction (.write cmdAddr (c.setWidth 64))

/-! ### The numbering of spec/opcode_table.json (log 15) -/

/-- A table row's word, placed in the space it belongs to: 80 bits are a bus word; up to five bits
are a selector; up to eight are a command byte, or, where no command has that byte and the three
high bits are zero, a selector. The two spaces overlap as numbers (log 15). -/
inductive TableWord where
  | bus (w : BusWord)
  | command (c : Byte)
  | selector (sel : BitVec 5)
deriving DecidableEq, Repr

/-- The space of a table word of `nbits` bits with value `w`. -/
def tableWord (nbits w : Nat) : TableWord :=
  if nbits ≤ 5 then .selector (BitVec.ofNat 5 (w % 2 ^ nbits))
  else if 8 < nbits then .bus (BitVec.ofNat 80 w)
  else if (decodeCommand (BitVec.ofNat 8 w)).toOption.isSome then .command (BitVec.ofNat 8 w)
  else if w < 32 ∧ (decodeSelector (BitVec.ofNat 5 w)).toOption.isSome then
    .selector (BitVec.ofNat 5 w)
  else .command (BitVec.ofNat 8 w)

/-- The instruction the decoder reads from a word numbered as spec/opcode_table.json numbers it. -/
def decodeTableWord (nbits w : Nat) : Option Instr :=
  match tableWord nbits w with
  | .bus word =>
    match decodeBusWord word with
    | .ok t => decodeTransaction t
    | .error _ => none
  | .command c => (decodeCommand c).toOption
  | .selector sel => (decodeSelector sel).toOption

end Sys2Proof
end

