-- ==== Sys2Proof/Machine/State.lean ====
section
/-! DEFINITION. The state of SNTPv4-TCE as plain data (10_state.md): the data registers, the CSRs,
the two packet buffers; beside them the environment's inputs (R50 to R53), the host's bus queue, and
the model's own schedule and counters. -/

namespace Sys2Proof.Machine

/-- The data registers `x[0]` to `x[14]`, 64 bits each (R21). `x[15]` is hard-wired to zero and has
no field. -/
structure DataRegs where
  /-- `x[0]`, codec operand A -/
  opa : Word
  /-- `x[1]`, codec seconds operand -/
  ops : Word
  /-- `x[2]`, codec real operand (binary64) -/
  opf : Word
  /-- `x[3]`, codec result -/
  res : Word
  /-- `x[4]`, T1, the client transmit timestamp -/
  t1 : Word
  /-- `x[5]`, T2, the reply's receive timestamp -/
  t2 : Word
  /-- `x[6]`, T3, the reply's transmit timestamp -/
  t3 : Word
  /-- `x[7]`, T1 in real seconds (binary64) -/
  t1r : Word
  /-- `x[8]`, T2 in real seconds (binary64) -/
  t2r : Word
  /-- `x[9]`, T3 in real seconds (binary64) -/
  t3r : Word
  /-- `x[10]`, T4 in real seconds (binary64) -/
  t4r : Word
  /-- `x[11]`, round-trip delay (binary64 seconds) -/
  delay : Word
  /-- `x[12]`, clock offset (binary64 seconds) -/
  offset : Word
  /-- `x[13]`, corrected time (binary64 seconds) -/
  corr : Word
  /-- `x[14]`, the returned integer seconds -/
  time : Word
deriving DecidableEq, Repr

/-- The control and status registers that store something (R30). FLAGS is computed from `rxvalid`,
`synced` and `state` (R33); CMD stores nothing (R39). -/
structure Csrs where
  /-- STATE, the program counter (R25) -/
  state : BitVec 3
  /-- ERR, the reason of the last abort, or 0 (R32) -/
  err : BitVec 4
  /-- FLAGS bit 0 (R27) -/
  rxvalid : Bool
  /-- FLAGS bit 1 (R27) -/
  synced : Bool
  /-- TIMEOUT, the poll budget (R34) -/
  timeout : Half
  /-- POLLCNT, the empty polls made (R35) -/
  pollcnt : Half
  /-- MSSTART (R36) -/
  msstart : Half
  /-- MSRECV (R36) -/
  msrecv : Half
  /-- MSPOLL (R36) -/
  mspoll : Half
  /-- MSCOMP (R36) -/
  mscomp : Half
  /-- MSSYNC (R36) -/
  mssync : Half
  /-- SLEEPMS, the length of the final sleep (R37) -/
  sleepms : Half
  /-- KISS, the reference id of a stratum-0 reply (R38) -/
  kiss : Half
  /-- KISSIDX, the lookup's result, 15 where no lookup was made (R38) -/
  kissidx : BitVec 4
deriving DecidableEq, Repr

/-- The packet buffers as one memory: (address, byte) pairs in the canonical form of `Memory.wf`. -/
abbrev Memory := List Host.Cell

/-- What a byte of memory that is not listed reads as: zero, the reset content of both buffers
(R57). -/
abbrev unlistedByte : Byte := 0#8

/-- The environment of the block (R50 to R53), not state of the block (R20): the values its inputs
have now, and what it last took from the block. -/
structure Env where
  /-- the millisecond counter (R50) -/
  ms : Half
  /-- the transport's connectivity Boolean (R51) -/
  netUp : Bool
  /-- the transport's answer to a send (R52) -/
  sendStatus : SendStatus
  /-- the datagram the next poll finds, if any (R53) -/
  rx : Option (List Byte)
  /-- the bytes last handed to the transport by SEND (41_transport.md R131); the model's own record -/
  sent : Option (List Byte)
deriving DecidableEq, Repr

/-- The host's side of the bus; the model's own fields (log 4, log 5). -/
structure HostPort where
  /-- the transactions issued that have not yet taken effect, oldest first (R47, R71) -/
  queue : List BusWord
  /-- the value the last READ returned (30_encoding.md R80) -/
  rdata : Option Word
deriving DecidableEq, Repr

/-- Which agent moves next; the model's own fields (log 1). -/
structure Sched where
  /-- the turns that come next, first one first -/
  turns : List Turn
  /-- how many turns have been drawn from `Config.nextTurn` -/
  turnCount : Nat
deriving DecidableEq, Repr

/-- The state of the machine. -/
structure State where
  /-- the data registers -/
  x : DataRegs
  /-- the control and status registers -/
  csr : Csrs
  /-- TXBUF and RXBUF -/
  mem : Memory
  /-- the environment's inputs -/
  env : Env
  /-- the host's side of the bus -/
  host : HostPort
  /-- the interleaving of the agents -/
  sched : Sched
  /-- how many free values have been drawn from `Config.freeValue` (log 10) -/
  freeCount : Nat
deriving DecidableEq, Repr

/-- Why the machine stops with a fault: never. The spec has no behaviour that stops the block
(93_implementation_defined.md, end of section 1); a failed exchange is a state, not a stop
(60_exceptions.md R244). So this type has no constructor and nothing raises it. -/
inductive Fault where
deriving DecidableEq, Repr

/-- Why a step has no meaning in the model. -/
inductive Refusal where
  /-- Raised only by an arm of `exec` for an instruction that has no meaning yet: no arm does. Safe:
  the model stops where the hardware goes on. -/
  | notModelled (mnemonic : String)
  /-- Raised by the `issue` and `bus` turns for a word whose `kind` is 0x02 to 0xFF: it is not a
  transaction and the host cannot issue it (30_encoding.md R80). Safe: the model stops at an input
  that cannot happen. -/
  | notATransaction (kind : Byte)
deriving DecidableEq, Repr

/-- What a step or an instruction answers. -/
abbrev Result := Host.Outcome State Fault Refusal

/-- The data registers after reset: all zero (R57). -/
def DataRegs.reset : DataRegs where
  opa := 0
  ops := 0
  opf := 0
  res := 0
  t1 := 0
  t2 := 0
  t3 := 0
  t1r := 0
  t2r := 0
  t3r := 0
  t4r := 0
  delay := 0
  offset := 0
  corr := 0
  time := 0

/-- The CSRs after reset: Idle, TIMEOUT 1024, KISSIDX 15, the rest zero (R57). -/
def Csrs.reset : Csrs where
  state := 0
  err := 0
  rxvalid := false
  synced := false
  timeout := 1024
  pollcnt := 0
  msstart := 0
  msrecv := 0
  mspoll := 0
  mscomp := 0
  mssync := 0
  sleepms := 0
  kiss := 0
  kissidx := 15

/-- The machine right after reset (R57, 70_reset_and_hazards.md R271). The environment is not reset
by the block; its values here, and those of the model's own fields, are DESIGN CHOICES (log 8):
counter 0, network down, status OK, no datagram, nothing issued, nothing scheduled. -/
def State.reset : State where
  x := DataRegs.reset
  csr := Csrs.reset
  mem := []
  env := { ms := 0, netUp := false, sendStatus := .ok, rx := none, sent := none }
  host := { queue := [], rdata := none }
  sched := { turns := [], turnCount := 0 }
  freeCount := 0

end Sys2Proof.Machine
end

