-- ==== Sys2Proof/Machine/Flags.lean ====
section
/-! DEFINITION. The codes of `csr.STATE` (10_state.md R25), the three status flags (R27, R33) and
the step selector (30_encoding.md R90). SNTPv4-TCE has no arithmetic condition codes. -/

namespace Sys2Proof.Machine

/-- Idle: no exchange has been started since reset (R25). -/
abbrev St.idle : BitVec 3 := 0#3
/-- RequestBuilt: TXBUF holds the request; nothing sent yet (R25). -/
abbrev St.requestBuilt : BitVec 3 := 1#3
/-- Awaiting: polling, or a reply waits to be validated (R25). -/
abbrev St.awaiting : BitVec 3 := 2#3
/-- Validated: the reply passed all six checks (R25). -/
abbrev St.validated : BitVec 3 := 3#3
/-- OffsetComputed: synchronisation pending or sleeping (R25). -/
abbrev St.offsetComputed : BitVec 3 := 4#3
/-- Done: the exchange succeeded (R25). -/
abbrev St.done : BitVec 3 := 5#3
/-- Failed: the exchange failed; `csr.ERR` is the reason (R25). -/
abbrev St.failed : BitVec 3 := 6#3

/-- BUSY: `csr.STATE` is RequestBuilt, Awaiting, Validated or OffsetComputed (R27). -/
def State.busy (s : State) : Bool :=
  s.csr.state == St.requestBuilt || s.csr.state == St.awaiting ||
    s.csr.state == St.validated || s.csr.state == St.offsetComputed

/-- Whether the block accepts host writes, commands among them: in Idle, Done or Failed (R26, R47).
In a legal state this is the opposite of BUSY; in the unreachable STATE 7 the block is stuck (U5,
log 18). -/
def State.accepting (s : State) : Bool :=
  s.csr.state == St.idle || s.csr.state == St.done || s.csr.state == St.failed

/-- `csr.FLAGS` (R33): bit 0 RXVALID, bit 1 SYNCED, bit 2 BUSY. -/
def State.flags (s : State) : BitVec 3 :=
  (BitVec.ofBool s.busy ++ BitVec.ofBool s.csr.synced ++ BitVec.ofBool s.csr.rxvalid : BitVec 3)

/-- The step selector `SYNCED ‖ RXVALID ‖ STATE` (R90). -/
def State.selector (s : State) : BitVec 5 := selectorOf s.csr.synced s.csr.rxvalid s.csr.state

end Sys2Proof.Machine
end

