-- ==== Sys2Proof/Machine/Ops.lean ====
section
/-! DEFINITION. The shared operations: buffer memory (20_memory.md R61), the failure entry
`raise Failed(reason)` (60_exceptions.md R244), the hold of an agent that has no step, and the
register updates several instructions make. There is no return from a failure (R248): GETTIME's
clear (42_engine_request_validate.md R151) is the only way out, and it is here too. -/

namespace Sys2Proof.Machine

/-! ### Buffer memory -/

/-- The addresses of the two packet buffers (10_state.md R46): 0x80 to 0xAF and 0xC0 to 0xEF. -/
def inBuffer (a : Nat) : Bool :=
  (Config.txBase ≤ a && a < Config.txBase + Config.pktLen) ||
    (Config.rxBase ≤ a && a < Config.rxBase + Config.pktLen)

/-- The canonical form of memory: addresses strictly rising, every address in a buffer, no entry
equal to what an unlisted address reads as. -/
def Memory.wf : Memory → Bool
  | [] => true
  | (a, b) :: rest =>
    inBuffer a && b != unlistedByte && rest.all (fun c => a < c.1) && Memory.wf rest

/-- `MemRead(addr, 1)`: the byte at `addr` (R61). -/
def memRead8 : Memory → Nat → Byte
  | [], _ => unlistedByte
  | (k, b) :: rest, a => if k = a then b else memRead8 rest a

/-- Put a byte before the entries `m`, unless it equals what an unlisted address reads as. -/
def memCons (a : Nat) (b : Byte) (m : Memory) : Memory :=
  if b = unlistedByte then m else (a, b) :: m

/-- `MemWrite(addr, 1, b)` (R61), keeping the canonical form. -/
def memWrite8 : Memory → Nat → Byte → Memory
  | [], a, b => memCons a b []
  | (k, c) :: rest, a, b =>
    if a < k then memCons a b ((k, c) :: rest)
    else if a = k then memCons a b rest
    else (k, c) :: memWrite8 rest a b

/-- Store bytes at consecutive addresses from `a` on. -/
def memWriteBytes (m : Memory) (a : Nat) : List Byte → Memory
  | [] => m
  | b :: bs => memWriteBytes (memWrite8 m a b) (a + 1) bs

/-- The `n` bytes from `a` on, in address order. -/
def memReadBytes (m : Memory) (a : Nat) : Nat → List Byte
  | 0 => []
  | n + 1 => memRead8 m a :: memReadBytes m (a + 1) n

/-- `MemRead(addr, 4)`: big-endian, the byte at `addr` most significant (R61). -/
def memRead32 (m : Memory) (a : Nat) : Half :=
  (memRead8 m a ++ memRead8 m (a + 1) ++ memRead8 m (a + 2) ++ memRead8 m (a + 3) : BitVec 32)

/-- `MemRead(addr, 8)`: big-endian, the byte at `addr` most significant (R61). -/
def memRead64 (m : Memory) (a : Nat) : Word :=
  (memRead32 m a ++ memRead32 m (a + 4) : BitVec 64)

/-- The eight bytes of a 64-bit value, most significant first (R61). -/
def bytesOf64 (v : Word) : List Byte :=
  [v.extractLsb' 56 8, v.extractLsb' 48 8, v.extractLsb' 40 8, v.extractLsb' 32 8,
    v.extractLsb' 24 8, v.extractLsb' 16 8, v.extractLsb' 8 8, v.extractLsb' 0 8]

/-- `MemWrite(addr, 8, v)`: big-endian (R61). -/
def memWrite64 (m : Memory) (a : Nat) (v : Word) : Memory := memWriteBytes m a (bytesOf64 v)

/-! ### Failures -/

/-- The reasons an exchange can fail (60_exceptions.md R241), in the order of their codes. -/
inductive Reason where
  | invalidArgument
  | networkUnavailable
  | addressUnavailable
  | overflow
  | ioError
  | protocolMismatch
  | unsupportedOperation
  | unsupportedProtocol
  | noDataAvailable
  | unsupportedProtocolFamily
  | temporarilyUnavailable
  | badMessage
deriving DecidableEq, Repr

/-- The code of a reason in `csr.ERR` (R241). -/
def reasonCode : Reason → BitVec 4
  | .invalidArgument => 1#4
  | .networkUnavailable => 2#4
  | .addressUnavailable => 3#4
  | .overflow => 4#4
  | .ioError => 5#4
  | .protocolMismatch => 6#4
  | .unsupportedOperation => 7#4
  | .unsupportedProtocol => 8#4
  | .noDataAvailable => 9#4
  | .unsupportedProtocolFamily => 10#4
  | .temporarilyUnavailable => 11#4
  | .badMessage => 12#4

/-- `raise Failed(reason)` (R244): `csr.ERR` and `csr.STATE` are written, everything else keeps its
value, writes made before it in the same step are kept. -/
def raiseFailed (r : Reason) (s : State) : State :=
  { s with csr := { s.csr with err := reasonCode r, state := St.failed } }

/-! ### Agents that have no step -/

/-- An agent whose turn it is but that has no enabled step: nothing changes (R9 `require`: the step
does not exist and it is not a fault; 60_exceptions.md R265: in a wait all state is kept). Log 2. -/
def held (s : State) : Result := .next s

/-- A host command takes effect only in Idle, Done or Failed (10_state.md R26, R47); otherwise the
write that would issue it is held. -/
def commandEffect (s : State) (effect : State) : Result :=
  if s.accepting then .next effect else held s

/-! ### Register updates -/

/-- Write `x[RES]`, the result register of the codec commands and KISSLK (R21). -/
def setRes (v : Word) (s : State) : State := { s with x := { s.x with res := v } }

/-- `pc <- target`: write `csr.STATE` (R9, R25). -/
def setState (target : BitVec 3) (s : State) : State :=
  { s with csr := { s.csr with state := target } }

/-- Both buffers all zero (42_engine_request_validate.md R150, part (1)). -/
def clearBuffers (m : Memory) : Memory :=
  memWriteBytes (memWriteBytes m Config.txBase (List.replicate Config.pktLen 0#8))
    Config.rxBase (List.replicate Config.pktLen 0#8)

/-- GETTIME's clear (R150 part (1), R151): every piece of per-exchange state returns to its reset
value. `csr.STATE` is not among them; the host-owned registers, RES and TIMEOUT are kept. -/
def clearExchange (s : State) : State :=
  { s with
    x := { s.x with
      t2 := 0, t3 := 0, t1r := 0, t2r := 0, t3r := 0, t4r := 0,
      delay := 0, offset := 0, corr := 0, time := 0 }
    csr := { s.csr with
      err := 0, rxvalid := false, synced := false, pollcnt := 0,
      msstart := 0, msrecv := 0, mspoll := 0, mscomp := 0, mssync := 0,
      sleepms := 0, kiss := 0, kissidx := 15 }
    mem := clearBuffers s.mem }

end Sys2Proof.Machine
end

