-- ==== Sys2Proof/Machine/Operands.lean ====
section
/-! DEFINITION. The operand forms and field layouts: the implicit operands of the commands
(30_encoding.md R88, 40_codec.md R111), the two timestamp formats (R98, R99), the header byte (R96),
the packet's field offsets (R95), elapsed milliseconds (10_state.md R50). -/

namespace Sys2Proof.Machine

/-! ### Operands of the commands -/

/-- `x[OPA][31:0]`, the operand of the short commands and of KISSLK; [63:32] is ignored (R111). -/
def opa32 (s : State) : Half := s.x.opa.extractLsb' 0 32

/-- `x[OPA][63:0]`, the operand of the long commands (R111). -/
def opa64 (s : State) : Word := s.x.opa

/-- `x[OPS][15:0]`, the seconds of PACK32; [63:16] is ignored (R111). -/
def ops16 (s : State) : BitVec 16 := s.x.ops.extractLsb' 0 16

/-- `x[OPS][31:0]`, the seconds of PACK64; [63:32] is ignored (R111). -/
def ops32 (s : State) : Half := s.x.ops.extractLsb' 0 32

/-! ### Fixed timestamps -/

/-- Whole seconds of a short timestamp: `v[31:16]` (R98). -/
def shortSeconds (v : Half) : BitVec 16 := v.extractLsb' 16 16

/-- Binary fraction of a short timestamp: `v[15:0]` (R98). -/
def shortFraction (v : Half) : BitVec 16 := v.extractLsb' 0 16

/-- Whole seconds of a long timestamp: `v[63:32]` (R99). -/
def longSeconds (v : Word) : Half := v.extractLsb' 32 32

/-- Binary fraction of a long timestamp: `v[31:0]` (R99). -/
def longFraction (v : Word) : Half := v.extractLsb' 0 32

/-- A short timestamp from its fields, seconds in the high half (R98, R116). -/
def shortOf (seconds fraction : BitVec 16) : Half := (seconds ++ fraction : BitVec 32)

/-- A long timestamp from its fields, seconds in the high half (R99, R117). -/
def longOf (seconds fraction : Half) : Word := (seconds ++ fraction : BitVec 64)

/-! ### The packet -/

/-- `LI_NOWARN` (R7). -/
abbrev liNoWarn : BitVec 2 := 0#2
/-- `LI_ALARM`, both leap bits set (R7). -/
abbrev liAlarm : BitVec 2 := 3#2
/-- `VERSION` (R7). -/
abbrev ntpVersion : BitVec 3 := 4#3
/-- `MODE_CLIENT` (R7). -/
abbrev modeClient : BitVec 3 := 3#3
/-- `MODE_SERVER`: PRESUMED 4, the spec's default for a number its source does not give
(R7, D27, log 13). -/
def modeServer : BitVec 3 := 4#3
/-- `STRATUM_MAX` (R7). -/
abbrev stratumMax : Byte := 15#8

/-- `hdr_pack` (R96): `li ‖ vn ‖ mode`. -/
def hdrPack (li : BitVec 2) (vn mode : BitVec 3) : Byte := (li ++ vn ++ mode : BitVec 8)
/-- The leap indicator of a header byte, [7:6] (R96). -/
def hdrLi (b : Byte) : BitVec 2 := b.extractLsb' 6 2
/-- The version of a header byte, [5:3] (R96). -/
def hdrVn (b : Byte) : BitVec 3 := b.extractLsb' 3 3
/-- The mode of a header byte, [2:0] (R96). -/
def hdrMode (b : Byte) : BitVec 3 := b.extractLsb' 0 3

/-- Offset of `li_vn_mode` (R95). -/
abbrev offHeader : Nat := 0
/-- Offset of `stratum` (R95). -/
abbrev offStratum : Nat := 1
/-- Offset of `ref_id` (R95). -/
abbrev offRefId : Nat := 12
/-- Offset of `originate_time` (R95). -/
abbrev offOrg : Nat := 24
/-- Offset of `receive_time` (R95). -/
abbrev offRec : Nat := 32
/-- Offset of `transmit_time` (R95). -/
abbrev offXmt : Nat := 40

/-! ### Time -/

/-- Elapsed milliseconds from latch `a` to latch `b`: `(b - a) mod 2^32` (R50). -/
def elapsedMs (a b : Half) : Half := b - a

end Sys2Proof.Machine
end

