-- ==== Sys2Proof/Machine/Codec.lean ====
section
/-! DEFINITION. The Timestamp Codec (40_codec.md): SEC32, SEC64, FRAC32, FRAC64, PACK32, PACK64.
Each reads only its operand registers and writes only `x[RES]` (R110). -/

namespace Sys2Proof.Machine

/-- The fraction of a short timestamp as a real: `v[15:0] / 2^16`, exact (R114). -/
def shortFractionReal (v : Half) : Word := f64Div (u32ToF64 ((shortFraction v).setWidth 32)) F64_2P16

/-- The fraction of a long timestamp as a real: `v[31:0] / 2^32`, exact (R115). -/
def longFractionReal (v : Word) : Word := f64Div (u32ToF64 (longFraction v)) F64_2P32

/-- `ts_to_real` (R121): seconds plus fraction, one rounding, at the addition. -/
def tsToReal (v : Word) : Word := f64Add (u32ToF64 (longSeconds v)) (longFractionReal v)

/-- `frac_field(f, N)` (R118); `free` is the field of a NaN or an infinity, which is unspecified. -/
def fracField (f : Word) (N : Nat) (free : BitVec N) : BitVec N := f64ToUint f N N free

/-- The unspecified value an instruction draws next (U1, log 10). -/
def freeWord (s : State) : Word := Config.freeValue s.freeCount

/-- Count a drawn free value: only a non-finite operand draws one (log 10). -/
def countFree (operand : Word) (n : Nat) (s : State) : State :=
  if f64Finite operand then s else { s with freeCount := s.freeCount + n }

/-- The result of PACK32 (R116). -/
def pack32Value (s : State) : Word :=
  (shortOf (ops16 s) (fracField s.x.opf 16 ((freeWord s).setWidth 16))).setWidth 64

/-- The result of PACK64 (R117). -/
def pack64Value (s : State) : Word :=
  longOf (ops32 s) (fracField s.x.opf 32 ((freeWord s).setWidth 32))

/-- `SEC32` (R112): `x[RES] <- zext_64(x[OPA][31:16])`. -/
def execSec32 (s : State) : Result :=
  commandEffect s (setRes ((shortSeconds (opa32 s)).setWidth 64) s)

/-- `SEC64` (R113): `x[RES] <- zext_64(x[OPA][63:32])`. -/
def execSec64 (s : State) : Result :=
  commandEffect s (setRes ((longSeconds (opa64 s)).setWidth 64) s)

/-- `FRAC32` (R114): `x[RES] <- x[OPA][15:0] / 2^16` as binary64. -/
def execFrac32 (s : State) : Result := commandEffect s (setRes (shortFractionReal (opa32 s)) s)

/-- `FRAC64` (R115): `x[RES] <- x[OPA][31:0] / 2^32` as binary64. -/
def execFrac64 (s : State) : Result := commandEffect s (setRes (longFractionReal (opa64 s)) s)

/-- `PACK32` (R116): `x[RES] <- zext_64(x[OPS][15:0] ‖ frac_field(x[OPF], 16))`. -/
def execPack32 (s : State) : Result :=
  commandEffect s (countFree s.x.opf 1 (setRes (pack32Value s) s))

/-- `PACK64` (R117): `x[RES] <- x[OPS][31:0] ‖ frac_field(x[OPF], 32)`. -/
def execPack64 (s : State) : Result :=
  commandEffect s (countFree s.x.opf 1 (setRes (pack64Value s) s))

end Sys2Proof.Machine
end

