-- ==== Sys2Proof/Machine/Kiss.lean ====
section
/-! DEFINITION. The Kiss-Code Table and KISSLK (44_kiss.md). -/

namespace Sys2Proof.Machine

/-- `KISS_TABLE` (R201), the parameter at its default: ACST AUTH AUTO BCST CRYP DENY DROP RSTR INIT
MCST NKEY RATE RMOT STEP. PRESUMED: ten of the codes and the order are the spec's own general
knowledge (D34, log 11). -/
def kissTable : List Half :=
  [0x41435354#32, 0x41555448#32, 0x4155544F#32, 0x42435354#32, 0x43525950#32, 0x44454E59#32,
    0x44524F50#32, 0x52535452#32, 0x494E4954#32, 0x4D435354#32, 0x4E4B4559#32, 0x52415445#32,
    0x524D4F54#32, 0x53544550#32]

/-- The index of the first entry of `table` equal to `c`, counting from `i`; 14 where there is none
(R202). -/
def kissFind (c : Half) (i : Nat) : List Half → BitVec 4
  | [] => 14#4
  | code :: rest => if code = c then BitVec.ofNat 4 i else kissFind c (i + 1) rest

/-- `kiss_lookup` over a given table (R202): exact match of all 32 bits. -/
def kissLookupIn (table : List Half) (c : Half) : BitVec 4 := kissFind c 0 table

/-- `kiss_lookup` (R202). -/
def kissLookup (c : Half) : BitVec 4 := kissLookupIn kissTable c

/-- `KISSLK` (R203): `x[RES] <- zext_64(kiss_lookup(x[OPA][31:0]))`. -/
def execKisslk (s : State) : Result :=
  commandEffect s (setRes ((kissLookup (opa32 s)).setWidth 64) s)

end Sys2Proof.Machine
end

