-- ==== Sys2Proof/Machine/Engine.lean ====
section
/-! DEFINITION. The on-wire protocol engine: GETTIME and VALIDATE (42_engine_request_validate.md),
COMPUTE, SYNC and WAKE (43_engine_compute_sync.md). -/

namespace Sys2Proof.Machine

/-! ### GETTIME -/

/-- The build (R150 part (3), R152): `x[T1]` to `transmit_time`, the header byte 0x23, the start
time, RequestBuilt. -/
def buildRequest (s : State) : State :=
  { s with
    mem := memWrite8 (memWrite64 s.mem (Config.txBase + offXmt) s.x.t1)
      (Config.txBase + offHeader) (hdrPack liNoWarn ntpVersion modeClient)
    csr := { s.csr with msstart := s.env.ms, state := St.requestBuilt } }

/-- GETTIME after the clear (R150 parts (2) and (3)): the argument check of R153, then the build. -/
def startExchange (s : State) : State :=
  if s.x.t1 = 0 ∨ s.csr.timeout = 0 then raiseFailed .invalidArgument s else buildRequest s

/-- `GETTIME` (R150): clear, check, build; accepted only in Idle, Done or Failed. -/
def execGettime (s : State) : Result := commandEffect s (startExchange (clearExchange s))

/-! ### VALIDATE -/

/-- The header byte of the reply in RXBUF (R160). -/
def replyHeader (s : State) : Byte := memRead8 s.mem (Config.rxBase + offHeader)
/-- The stratum of the reply (R160). -/
def replyStratum (s : State) : Byte := memRead8 s.mem (Config.rxBase + offStratum)
/-- The reference id of the reply (R160). -/
def replyRefId (s : State) : Half := memRead32 s.mem (Config.rxBase + offRefId)
/-- The originate timestamp of the reply (R160). -/
def replyOrg (s : State) : Word := memRead64 s.mem (Config.rxBase + offOrg)
/-- The receive timestamp of the reply (R160). -/
def replyRec (s : State) : Word := memRead64 s.mem (Config.rxBase + offRec)
/-- The transmit timestamp of the reply (R160). -/
def replyXmt (s : State) : Word := memRead64 s.mem (Config.rxBase + offXmt)

/-- Record the kiss code and its index in `table` (R165). -/
def recordKiss (table : List Half) (s : State) : State :=
  { s with csr := { s.csr with
      kiss := replyRefId s, kissidx := kissLookupIn table (replyRefId s) } }

/-- Load T2 and T3 from a reply that passed all six checks (R160, R167). -/
def loadReply (s : State) : State :=
  { s with
    x := { s.x with t2 := replyRec s, t3 := replyXmt s }
    csr := { s.csr with state := St.validated } }

/-- The six checks a to f in their fixed order, the first that fails reported (R160 to R167), over a
given kiss table. -/
def validateWith (table : List Half) (s : State) : State :=
  if hdrMode (replyHeader s) ≠ modeServer then raiseFailed .unsupportedOperation s
  else if hdrVn (replyHeader s) ≠ ntpVersion then raiseFailed .unsupportedProtocol s
  else if hdrLi (replyHeader s) = liAlarm then raiseFailed .noDataAvailable s
  else if stratumMax < replyStratum s then raiseFailed .unsupportedProtocolFamily s
  else if replyStratum s = 0 then raiseFailed .temporarilyUnavailable (recordKiss table s)
  else if replyOrg s ≠ s.x.t1 then raiseFailed .badMessage s
  else loadReply s

/-- `VALIDATE` (R160). -/
def execValidate (s : State) : Result :=
  if s.csr.state = St.awaiting ∧ s.csr.rxvalid = true then .next (validateWith kissTable s)
  else held s

/-! ### COMPUTE -/

/-- Milliseconds as binary64 seconds: exact conversion, one division by 1000.0 (R182). -/
def msToReal (ms : Half) : Word := f64Div (u32ToF64 ms) F64_1000

/-- T4 = T1 + elapsed milliseconds / 1000 (R182). -/
def clientReceive (s : State) : Word :=
  f64Add (tsToReal s.x.t1) (msToReal (elapsedMs s.csr.msstart s.csr.msrecv))

/-- `roundTripDelay = (T4 - T1) - (T3 - T2)`, strictly in this order (R183). -/
def roundTripDelay (t1 t2 t3 t4 : Word) : Word := f64Sub (f64Sub t4 t1) (f64Sub t3 t2)

/-- `clockOffset = ((T2 - T1) + (T3 - T4)) / 2`, strictly in this order (R183). -/
def clockOffset (t1 t2 t3 t4 : Word) : Word :=
  f64Div (f64Add (f64Sub t2 t1) (f64Sub t3 t4)) F64_TWO

/-- COMPUTE's effect (R180). -/
def computeEffect (s : State) : State :=
  let t1 := tsToReal s.x.t1
  let t2 := tsToReal s.x.t2
  let t3 := tsToReal s.x.t3
  let t4 := clientReceive s
  { s with
    x := { s.x with
      t1r := t1, t2r := t2, t3r := t3, t4r := t4,
      delay := roundTripDelay t1 t2 t3 t4, offset := clockOffset t1 t2 t3 t4 }
    csr := { s.csr with mscomp := s.env.ms, state := St.offsetComputed } }

/-- `COMPUTE` (R180). -/
def execCompute (s : State) : Result :=
  if s.csr.state = St.validated then .next (computeEffect s) else held s

/-! ### SYNC -/

/-- The parameter `LOCAL_CLOCK_TERM` at its default, `x[T4R]` (R187, D28, log 12). -/
def localClockTerm (s : State) : Word := s.x.t4r

/-- `correctedTime = 1 + OFFSET + localClock + elapsed`, added left to right (R185, R187). -/
def correctedTime (offset localClock : Word) (el : Half) : Word :=
  f64Add (f64Add (f64Add F64_ONE offset) localClock) (msToReal el)

/-- Seconds from `c` to the next whole second, `1 - frac(c)` (R185, R189). -/
def remainingSecond (c : Word) : Word := f64Sub F64_ONE (f64Sub c (f64Floor c))

/-- The length of the final sleep in milliseconds (R185, R189). -/
def sleepLength (c : Word) (free : Half) : Half :=
  f64ToUint (f64Mul (remainingSecond c) F64_1000) 0 32 free

/-- The returned integer seconds (R185, R188). -/
def wholeSeconds (c : Word) (free : Half) : Half := f64ToUint c 0 32 free

/-- SYNC's effect with a given local-clock term (R185). A corrected time that is no number (no
reachable state has one, R189(b)) would draw two free values. -/
def syncWith (localClock : Word) (s : State) : State :=
  let c := correctedTime s.x.offset localClock (elapsedMs s.csr.mscomp s.env.ms)
  let free1 := (Config.freeValue s.freeCount).setWidth 32
  let free2 := (Config.freeValue (s.freeCount + 1)).setWidth 32
  countFree c 2
    { s with
      x := { s.x with corr := c, time := (wholeSeconds c free1).setWidth 64 }
      csr := { s.csr with
        sleepms := sleepLength c free2, mssync := s.env.ms, synced := true } }

/-- `SYNC` (R185). -/
def execSync (s : State) : Result :=
  if s.csr.state = St.offsetComputed ∧ s.csr.synced = false then
    .next (syncWith (localClockTerm s) s)
  else held s

/-! ### WAKE -/

/-- WAKE's enabling condition (R190): OffsetComputed, SYNCED, and the sleep has elapsed. -/
def wakeEnabled (s : State) : Bool :=
  s.csr.state == St.offsetComputed && s.csr.synced &&
    s.csr.sleepms.toNat ≤ (elapsedMs s.csr.mssync s.env.ms).toNat

/-- `WAKE` (R190): end the sleep; held while it has not elapsed. -/
def execWake (s : State) : Result := if wakeEnabled s then .next (setState St.done s) else held s

end Sys2Proof.Machine
end

