-- ==== Sys2Proof/Machine/Transport.lean ====
section
/-! DEFINITION. The transport steps SEND and POLL (41_transport.md). The environment's answers are
in State's `env` (10_state.md R51 to R53). -/

namespace Sys2Proof.Machine

/-- The 48 bytes of TXBUF in address order, byte 0 first (20_memory.md R63). -/
def requestBytes (s : State) : List Byte := memReadBytes s.mem Config.txBase Config.pktLen

/-- Hand the request to the transport (R131): the 48 bytes of TXBUF and nothing else. -/
def handOver (s : State) : State := { s with env := { s.env with sent := some (requestBytes s) } }

/-- What SEND does once the network is up: the transport takes the bytes and answers (R130). -/
def sendOutcome (s : State) : State :=
  match s.env.sendStatus with
  | .addrFail => raiseFailed .addressUnavailable (handOver s)
  | .enqFail => raiseFailed .overflow (handOver s)
  | .finFail => raiseFailed .ioError (handOver s)
  | .ok => setState St.awaiting (handOver s)

/-- `SEND` (R130): the checks in the order of R132. -/
def execSend (s : State) : Result :=
  if s.csr.state = St.requestBuilt then
    .next (if s.env.netUp then sendOutcome s else raiseFailed .networkUnavailable s)
  else held s

/-- POLL's enabling condition (R134): Awaiting, no reply yet, and the yield of R139. -/
def pollEnabled (s : State) : Bool :=
  s.csr.state == St.awaiting && !s.csr.rxvalid &&
    (s.csr.pollcnt == 0 || 1 ≤ (elapsedMs s.csr.mspoll s.env.ms).toNat)

/-- A datagram handed to a POLL is consumed whole (10_state.md R53). -/
def consumeRx (s : State) : State := { s with env := { s.env with rx := none } }

/-- An empty poll (R136): count it, latch the time, fail when the budget is used up. -/
def pollEmpty (s : State) : State :=
  let counted :=
    { s with csr := { s.csr with pollcnt := s.csr.pollcnt + 1, mspoll := s.env.ms } }
  if counted.csr.pollcnt = counted.csr.timeout then raiseFailed .protocolMismatch counted
  else counted

/-- Accept a reply (R137): the first 48 bytes to RXBUF, the receive time, RXVALID. -/
def pollAccept (bytes : List Byte) (s : State) : State :=
  { s with
    mem := memWriteBytes s.mem Config.rxBase (bytes.take Config.pktLen)
    csr := { s.csr with msrecv := s.env.ms, rxvalid := true } }

/-- What a poll does with the transport's answer (R134). A datagram of length zero is no datagram
(10_state.md R53). -/
def pollOutcome (s : State) : State :=
  match s.env.rx with
  | none => pollEmpty s
  | some bytes =>
    if bytes.length = 0 then pollEmpty (consumeRx s)
    else if bytes.length < Config.pktLen then raiseFailed .protocolMismatch (consumeRx s)
    else pollAccept bytes (consumeRx s)

/-- `POLL` (R134): one iteration of the receive loop; held by the yield of R139. -/
def execPoll (s : State) : Result := if pollEnabled s then .next (pollOutcome s) else held s

end Sys2Proof.Machine
end

