-- ==== Sys2Proof/Machine/Dispatch.lean ====
section
/-! DEFINITION. The dispatch of an instruction to its meaning, one arm per constructor. -/

namespace Sys2Proof.Machine

def exec (i : Instr) (s : State) : Host.Outcome State Fault Refusal :=
  match i with
  | .sec32 => Sys2Proof.Machine.execSec32 s
  | .sec64 => Sys2Proof.Machine.execSec64 s
  | .frac32 => Sys2Proof.Machine.execFrac32 s
  | .frac64 => Sys2Proof.Machine.execFrac64 s
  | .pack32 => Sys2Proof.Machine.execPack32 s
  | .pack64 => Sys2Proof.Machine.execPack64 s
  | .kisslk => Sys2Proof.Machine.execKisslk s
  | .gettime => Sys2Proof.Machine.execGettime s
  | .send => Sys2Proof.Machine.execSend s
  | .poll => Sys2Proof.Machine.execPoll s
  | .validate => Sys2Proof.Machine.execValidate s
  | .compute => Sys2Proof.Machine.execCompute s
  | .sync => Sys2Proof.Machine.execSync s
  | .wake => Sys2Proof.Machine.execWake s

end Sys2Proof.Machine
end

