-- ==== Sys2Proof/Machine/Agents.lean ====
section
/-! DEFINITION. What each agent does in its turn (00_scope.md R6): the host's bus transactions
(10_state.md R22, R30, R46, R47), the engine's step selection (30_encoding.md R91), the clock, the
transport's answers, the reset (70_reset_and_hazards.md R270); and which turn comes next (log 1). -/

namespace Sys2Proof.Machine

/-! ### Host reads and writes -/

/-- A host read of one of the addresses 0x00 to 0x1F (R21, R30, R46); reserved ones, `x[15]` and CMD
read zero. -/
def readRegister (s : State) (a : Nat) : Word :=
  match a with
  | 0x00 => s.x.opa
  | 0x01 => s.x.ops
  | 0x02 => s.x.opf
  | 0x03 => s.x.res
  | 0x04 => s.x.t1
  | 0x05 => s.x.t2
  | 0x06 => s.x.t3
  | 0x07 => s.x.t1r
  | 0x08 => s.x.t2r
  | 0x09 => s.x.t3r
  | 0x0A => s.x.t4r
  | 0x0B => s.x.delay
  | 0x0C => s.x.offset
  | 0x0D => s.x.corr
  | 0x0E => s.x.time
  | 0x10 => s.csr.state.setWidth 64
  | 0x11 => s.csr.err.setWidth 64
  | 0x12 => s.flags.setWidth 64
  | 0x13 => s.csr.timeout.setWidth 64
  | 0x14 => s.csr.pollcnt.setWidth 64
  | 0x15 => s.csr.msstart.setWidth 64
  | 0x16 => s.csr.msrecv.setWidth 64
  | 0x17 => s.csr.mspoll.setWidth 64
  | 0x18 => s.csr.mscomp.setWidth 64
  | 0x19 => s.csr.mssync.setWidth 64
  | 0x1A => s.csr.sleepms.setWidth 64
  | 0x1B => s.csr.kiss.setWidth 64
  | 0x1C => s.csr.kissidx.setWidth 64
  | _ => 0

/-- The value a host READ of an address returns (R46): a register, a buffer byte zero-extended, or
zero for a reserved address. -/
def hostRead (s : State) (addr : Addr) : Word :=
  if inBuffer addr.toNat then (memRead8 s.mem addr.toNat).setWidth 64
  else readRegister s addr.toNat

/-- A host write to an address other than CMD (R22, R30, R46): OPA, OPS, OPF and T1 take all 64
bits, TIMEOUT the low 32; every other address changes nothing. -/
def hostStore (addr : Addr) (data : Word) (s : State) : State :=
  match addr.toNat with
  | 0x00 => { s with x := { s.x with opa := data } }
  | 0x01 => { s with x := { s.x with ops := data } }
  | 0x02 => { s with x := { s.x with opf := data } }
  | 0x04 => { s with x := { s.x with t1 := data } }
  | 0x13 => { s with csr := { s.csr with timeout := data.extractLsb' 0 32 } }
  | _ => s

/-- An accepted host write: to CMD it executes the command at once (R39, R85), a reserved command
byte being ignored (R87); elsewhere it stores. -/
def acceptWrite (addr : Addr) (data : Word) (s : State) : Result :=
  if addr = cmdAddr then
    match decodeCommand (commandByte data) with
    | .ok i => exec i s
    | .error _ => .next s
  else .next (hostStore addr data s)

/-- The bus's turn: the host's oldest transaction, if there is one. A READ is accepted in every
state; a WRITE only in Idle, Done or Failed, and otherwise it is held, not dropped (R47). -/
def busTurn (s : State) : Result :=
  match s.host.queue with
  | [] => .next s
  | w :: rest =>
    match decodeBusWord w with
    | .ok (.read addr) =>
      .next { s with host := { queue := rest, rdata := some (hostRead s addr) } }
    | .ok (.write addr data) =>
      if s.accepting then acceptWrite addr data { s with host := { s.host with queue := rest } }
      else held s
    | .error _ => .refused (.notATransaction (busKind w))

/-- The host issues a transaction word; what is no transaction it cannot issue (R80). -/
def issueTurn (w : BusWord) (s : State) : Result :=
  match decodeBusWord w with
  | .ok _ => .next { s with host := { s.host with queue := s.host.queue ++ [w] } }
  | .error _ => .refused (.notATransaction (busKind w))

/-! ### The other agents -/

/-- The engine's turn: the step its selector enables (30_encoding.md R91), if any. -/
def engineTurn (s : State) : Result :=
  match decodeSelector s.selector with
  | .ok i => exec i s
  | .error _ => held s

/-- The clock's step: `env.ms <- (env.ms + 1) mod 2^32` (R50). -/
def clockTick (s : State) : State := { s with env := { s.env with ms := s.env.ms + 1 } }

/-- The transport's answers from now on (R51 to R53). -/
def transportAnswer (netUp : Bool) (status : SendStatus) (rx : Option (List Byte)) (s : State) :
    State :=
  { s with env := { s.env with netUp := netUp, sendStatus := status, rx := rx } }

/-- The reset (70_reset_and_hazards.md R270, R272): every piece of state of the block takes its
reset value; the environment and the host's issued transactions stay (log 9). -/
def applyReset (s : State) : State :=
  { s with x := State.reset.x, csr := State.reset.csr, mem := State.reset.mem }

/-- What a turn does. -/
def takeTurn (t : Turn) (s : State) : Result :=
  match t with
  | .issue w => issueTurn w s
  | .bus => busTurn s
  | .engine => engineTurn s
  | .answer netUp status rx => .next (transportAnswer netUp status rx s)
  | .tick => .next (clockTick s)
  | .reset => .next (applyReset s)

/-! ### Whose turn it is -/

/-- The turn that comes next: the first of the scheduled ones, or a free one (log 1). -/
def upcomingTurn (s : State) : Turn :=
  match s.sched.turns with
  | t :: _ => t
  | [] => Config.nextTurn s.sched.turnCount

/-- The state with that turn taken off the schedule. -/
def popTurn (s : State) : State :=
  match s.sched.turns with
  | _ :: ts => { s with sched := { s.sched with turns := ts } }
  | [] => { s with sched := { s.sched with turnCount := s.sched.turnCount + 1 } }

/-! ### Placing an instruction (log 16) -/

/-- Place a bus word as the host's oldest transaction and give the bus the next turn. A WRITE is
held while an exchange runs, so such a machine is put in Idle. -/
def placeBusWord (w : BusWord) (s : State) : State :=
  { s with
    csr := { s.csr with state := if s.accepting then s.csr.state else St.idle }
    host := { s.host with queue := w :: s.host.queue }
    sched := { s.sched with turns := .bus :: s.sched.turns } }

/-- Put the engine where its selector is `sel` and give it the next turn. -/
def setSelector (sel : BitVec 5) (s : State) : State :=
  { s with
    csr := { s.csr with
      state := sel.extractLsb' 0 3, rxvalid := sel.getLsbD 3, synced := sel.getLsbD 4 }
    sched := { s.sched with turns := .engine :: s.sched.turns } }

/-- Lift the hold of an engine step by the millisecond counter, if it is held: POLL's by moving
MSPOLL one tick back (R139), WAKE's by moving MSSYNC back by the sleep (R190). -/
def liftHold (s : State) : State :=
  match decodeSelector s.selector with
  | .ok .poll =>
    if pollEnabled s then s else { s with csr := { s.csr with mspoll := s.env.ms - 1 } }
  | .ok .wake =>
    if wakeEnabled s then s
    else { s with csr := { s.csr with mssync := s.env.ms - s.csr.sleepms } }
  | _ => s

/-- Place an engine step: its selector, the next turn, and no hold. -/
def placeSelector (sel : BitVec 5) (s : State) : State := liftHold (setSelector sel s)

/-- Place a word of spec/opcode_table.json, in the space it belongs to. -/
def placeTableWord (t : TableWord) (s : State) : State :=
  match t with
  | .bus w => placeBusWord w s
  | .command c => placeBusWord (encodeCommandWord c) s
  | .selector sel => placeSelector sel s

end Sys2Proof.Machine
end

