-- ==== Sys2Proof/Machine/Step.lean ====
section
/-! DEFINITION. One step of the machine: the next agent takes its turn (00_scope.md R6,
20_memory.md R70), every step atomic and all of them in one order. -/

namespace Sys2Proof.Machine

/-- One step: the upcoming turn is taken off the schedule and taken. -/
def step (s : State) : Host.Outcome State Fault Refusal := takeTurn (upcomingTurn s) (popTurn s)

/-- `s` with the instruction of the table word `w` of `nbits` bits placed where the next step runs
it: a command as the host's oldest transaction, an engine step as the engine's selector. -/
def State.withFetchWord (s : State) (nbits w : Nat) : State :=
  placeTableWord (tableWord nbits w) s

end Sys2Proof.Machine
end

