-- ==== Sys2Proof/Machine/Assembler.lean ====
section
/-! DEFINITION. The assembler of 30_encoding.md R104 and R105, from lines to bus words, and the
trace syntax of R106, from lines to turns. -/

namespace Sys2Proof.Machine

/-- The host address of a location (R104, 10_state.md R21, R30, R46). -/
def locAddr : Loc → Addr
  | .opa => 0x00#8
  | .ops => 0x01#8
  | .opf => 0x02#8
  | .res => 0x03#8
  | .t1 => 0x04#8
  | .t2 => 0x05#8
  | .t3 => 0x06#8
  | .t1r => 0x07#8
  | .t2r => 0x08#8
  | .t3r => 0x09#8
  | .t4r => 0x0A#8
  | .delay => 0x0B#8
  | .offset => 0x0C#8
  | .corr => 0x0D#8
  | .time => 0x0E#8
  | .state => 0x10#8
  | .err => 0x11#8
  | .flags => 0x12#8
  | .timeout => 0x13#8
  | .pollcnt => 0x14#8
  | .msstart => 0x15#8
  | .msrecv => 0x16#8
  | .mspoll => 0x17#8
  | .mscomp => 0x18#8
  | .mssync => 0x19#8
  | .sleepms => 0x1A#8
  | .kiss => 0x1B#8
  | .kissidx => 0x1C#8
  | .cmd => cmdAddr
  | .txbuf k => BitVec.ofNat 8 (Config.txBase + k)
  | .rxbuf k => BitVec.ofNat 8 (Config.rxBase + k)
  | .address a => a

/-- The 64-bit value of a value operand (R104): a decimal is converted to the nearest binary64
pattern, correctly rounded (45_binary64.md R221). DESIGN CHOICE (log 28): a decimal written with a
minus sign whose nearest value is zero gives -0.0; the spec states no sign for that zero. -/
def asmValue : AsmValue → Word
  | .num v => v
  | .real negative digits places => f64RN negative (f64One * digits) (10 ^ places)

/-- `wr <loc>, <value>` (R104). -/
def asmWrite (loc : Loc) (v : AsmValue) : BusWord :=
  encodeTransaction (.write (locAddr loc) (asmValue v))

/-- `rd <loc>` (R104). -/
def asmRead (loc : Loc) : BusWord := encodeTransaction (.read (locAddr loc))

/-- A command mnemonic on a line of its own: the same as `wr CMD, <its byte>` (R104). An engine step
has no encoding as a line (R106). -/
def asmCommand (i : Instr) : List BusWord :=
  match encode i with
  | .command c => [encodeCommandWord c]
  | .selector _ => []

/-- The bus words of a line (R104, R105). -/
def assemble : AsmLine → List BusWord
  | .wr loc v => [asmWrite loc v]
  | .rd loc => [asmRead loc]
  | .command i => asmCommand i
  | .sec32 v => asmWrite .opa v :: asmCommand .sec32
  | .sec64 v => asmWrite .opa v :: asmCommand .sec64
  | .frac32 v => asmWrite .opa v :: asmCommand .frac32
  | .frac64 v => asmWrite .opa v :: asmCommand .frac64
  | .pack32 s f => asmWrite .ops s :: asmWrite .opf f :: asmCommand .pack32
  | .pack64 s f => asmWrite .ops s :: asmWrite .opf f :: asmCommand .pack64
  | .kisslk c => asmWrite .opa c :: asmCommand .kisslk
  | .settimeout n => [asmWrite .timeout n]
  | .gettime t => asmWrite .t1 t :: asmCommand .gettime
  | .wait => [asmRead .state]

/-- Whether the loop of `wait` ends on the value read: Done or Failed (R105). -/
def waitEnds (value : Word) : Bool := value == 5#64 || value == 6#64

/-- The turns of a trace line (R106): a step's draws are set just before it. SEND's line leaves no
datagram pending, POLL's line leaves the network down; the step does not read them. -/
def traceTurns : TraceLine → List Turn
  | .tick n => List.replicate n .tick
  | .send netUp status => [.answer netUp status none, .engine]
  | .poll rx => [.answer false .ok rx, .engine]
  | .validate => [.engine]
  | .compute => [.engine]
  | .sync => [.engine]
  | .wake => [.engine]

end Sys2Proof.Machine
end

