-- ==== Sys2Proof/Safety.lean ====
section
/-! DEFINITION. What counts as a safe state and a safe step, in the terms the claims use: the
invariants the spec derives (10_state.md R32, R35, R38; 60_exceptions.md R245; 42 R166; 45 R214) and
the termination measure of 70_reset_and_hazards.md R283. -/

namespace Sys2Proof.Safety

open Sys2Proof.Machine

/-! ### Legal codes -/

/-- `csr.ERR` ≠ 0 if and only if `csr.STATE` = Failed (R32). -/
def ErrIffFailed (s : State) : Prop := s.csr.err ≠ 0 ↔ s.csr.state = St.failed

/-- Only assigned codes: STATE is not 7 (R25), ERR is at most 12 (R32). -/
def LegalCodes (s : State) : Prop := s.csr.state ≠ 7 ∧ s.csr.err ≤ 12

/-- RXVALID and SYNCED say what the state says (R26, R27): a reply is there from Validated on, and
can be there in Awaiting and Failed; SYNCED only in OffsetComputed and Done, and always in Done. -/
def FlagsAgree (s : State) : Prop :=
  (s.csr.rxvalid = true →
    s.csr.state ∈ [St.awaiting, St.validated, St.offsetComputed, St.done, St.failed]) ∧
  (s.csr.state ∈ [St.validated, St.offsetComputed, St.done] → s.csr.rxvalid = true) ∧
  (s.csr.synced = true → s.csr.state ∈ [St.offsetComputed, St.done]) ∧
  (s.csr.state = St.done → s.csr.synced = true)

/-! ### Registers no step has reached read zero (R23, R245, R280) -/

/-- Results are zero until the step that writes them has run. -/
def UnreachedZero (s : State) : Prop :=
  (s.csr.state ∈ [St.idle, St.requestBuilt, St.awaiting, St.failed] → s.x.t2 = 0 ∧ s.x.t3 = 0) ∧
  (s.csr.state ∈ [St.idle, St.requestBuilt, St.awaiting, St.validated, St.failed] →
    s.x.t1r = 0 ∧ s.x.t2r = 0 ∧ s.x.t3r = 0 ∧ s.x.t4r = 0 ∧ s.x.delay = 0 ∧ s.x.offset = 0) ∧
  (s.csr.synced = false →
    s.x.corr = 0 ∧ s.x.time = 0 ∧ s.csr.sleepms = 0 ∧ s.csr.mssync = 0)

/-! ### The poll budget (R35) -/

/-- While polling the count of empty polls is below the budget; when the request is built it is zero
and the budget is not. -/
def PollBudget (s : State) : Prop :=
  (s.csr.state = St.requestBuilt → s.csr.pollcnt = 0 ∧ s.csr.timeout ≠ 0) ∧
  (s.csr.state = St.awaiting → s.csr.rxvalid = false → s.csr.pollcnt < s.csr.timeout)

/-! ### The kiss record (R38) -/

/-- A lookup is recorded exactly in a state that failed with TemporarilyUnavailable; elsewhere KISS
is zero and KISSIDX is 15. -/
def KissRecord (s : State) : Prop :=
  (s.csr.err = 11 ↔ s.csr.kissidx ≠ 15) ∧ (s.csr.kissidx = 15 → s.csr.kiss = 0)

/-! ### The buffers (R101, R138, R166) -/

/-- Byte `k` of the request image for T1 = `t` (R101). -/
def requestByte (t : Word) (k : Nat) : Byte :=
  if k = 0 then 0x23#8
  else if k < 40 then 0#8
  else t.extractLsb' (8 * (47 - k)) 8

/-- Memory is canonical; while busy TXBUF is the request image of `x[T1]`; RXBUF is all zero until a
reply is accepted. -/
def BufferImage (s : State) : Prop :=
  s.mem.wf = true ∧
  (s.busy = true → ∀ k < Config.pktLen,
    memRead8 s.mem (Config.txBase + k) = requestByte s.x.t1 k) ∧
  (s.csr.rxvalid = false → ∀ k < Config.pktLen, memRead8 s.mem (Config.rxBase + k) = 0#8)

/-! ### Every real value is finite and in range (R184, R189, R214) -/

/-- A finite pattern of magnitude at most `2^k`. -/
def AtMostPow2 (p : Word) (k : Nat) : Prop := f64Finite p = true ∧ f64Mag p ≤ 2 ^ k * f64One

/-- A finite, nonnegative pattern other than -0.0, of magnitude at most `2^k`. -/
def NonnegAtMostPow2 (p : Word) (k : Nat) : Prop := AtMostPow2 p k ∧ f64Sign p = false

/-- COMPUTE's registers hold what its formulas give (R182, R183) for some elapsed time, from three
times in [0, 2^32], and are in the ranges of R184(a). They also do while all of them are zero. -/
def MeasurementInRange (x : DataRegs) : Prop :=
  NonnegAtMostPow2 x.t1r 32 ∧ NonnegAtMostPow2 x.t2r 32 ∧ NonnegAtMostPow2 x.t3r 32 ∧
  NonnegAtMostPow2 x.t4r 33 ∧ f64Mag x.t4r < (2 ^ 32 + 2 ^ 23) * f64One ∧
  (∃ el : Half, x.t4r = f64Add x.t1r (msToReal el)) ∧
  AtMostPow2 x.delay 34 ∧ x.delay = roundTripDelay x.t1r x.t2r x.t3r x.t4r ∧
  AtMostPow2 x.offset 34 ∧ x.offset = clockOffset x.t1r x.t2r x.t3r x.t4r

/-- `x[CORR]` is finite and below 2^33, +0.0 or positive, and positive once SYNC has written it
(R189(b)). -/
def CorrectedTimeInRange (s : State) : Prop :=
  NonnegAtMostPow2 s.x.corr 33 ∧ f64Mag s.x.corr < 2 ^ 33 * f64One ∧
  (s.csr.synced = true → f64Mag s.x.corr ≠ 0)

/-- The real registers hold finite values in range, and the sleep is at most 1000 ms. -/
def RealsInRange (s : State) : Prop :=
  MeasurementInRange s.x ∧ CorrectedTimeInRange s ∧
  s.csr.sleepms.toNat ≤ 1000 ∧ s.x.time.toNat < 2 ^ 32

/-! ### Progress (R283) -/

/-- The engine has a step it can take now: its selector enables one and no wait holds it. -/
def engineEnabled (s : State) : Bool :=
  match decodeSelector s.selector with
  | .ok .poll => pollEnabled s
  | .ok .wake => wakeEnabled s
  | .ok _ => true
  | .error _ => false

/-- An upper bound on the engine steps an exchange still takes (R283): TIMEOUT + 5 after GETTIME. -/
def stepsLeft (s : State) : Nat :=
  let polls := s.csr.timeout.toNat - s.csr.pollcnt.toNat
  if s.csr.state = St.requestBuilt then polls + 5
  else if s.csr.state = St.awaiting then if s.csr.rxvalid then 4 else polls + 4
  else if s.csr.state = St.validated then 3
  else if s.csr.state = St.offsetComputed then if s.csr.synced then 1 else 2
  else 0

/-- `n` clock ticks (R106 `tick n`). -/
def ticks : Nat → State → State
  | 0, s => s
  | n + 1, s => ticks n (clockTick s)

/-- The clock ticks `gap` times and a POLL finds nothing (41_transport.md R136, R139). -/
def emptyPollAfter (s : State) (gap : Nat) : State :=
  let ticked := ticks gap s
  match exec .poll { ticked with env := { ticked.env with rx := none } } with
  | .next t => t
  | .fault _ => s
  | .refused _ => s

/-- One empty poll for each entry of `gaps`, that many ticks after the one before. -/
def emptyPolls (gaps : List Nat) (s : State) : State := gaps.foldl emptyPollAfter s

/-- A step that does not stop the machine. -/
def Continues (s : State) : Prop := ∃ t, step s = .next t

/-- Every word the host has issued, and every word it is scheduled to issue next, is a transaction
(R80). -/
def HostWordsLegal (s : State) : Prop :=
  (∀ w ∈ s.host.queue, busKind w = 0x00#8 ∨ busKind w = 0x01#8) ∧
  (∀ w, upcomingTurn s = .issue w → busKind w = 0x00#8 ∨ busKind w = 0x01#8)

end Sys2Proof.Safety
end

