-- ==== Sys2Proof/Certificates/Slice0/Obligations.lean ====
section
/-! DEFINITION. The statements for the provers, each from the numbered rules of spec/. `x[NAME]` of
the spec is `s.x.name`, `csr.NAME` is `s.csr.name`, `env.name` is `s.env.name`; TXBUF is at 128 = 0x80,
RXBUF at 192 = 0xC0. A binary64 pattern `p` stands for `f64Units p / f64One`. -/

open Sys2Proof Sys2Proof.Machine Sys2Proof.Safety

/-! ### Encodings -/

/-- 30_encoding.md R86, R87: the command map is exact; every other byte is no command. -/
def Obligations.CommandMapIsExact : Prop :=
  ∀ (c : Byte) (i : Instr), decodeCommand c = .ok i ↔
    (c, i) ∈ [(0x00#8, Instr.sec32), (0x01#8, .sec64), (0x02#8, .frac32), (0x03#8, .frac64),
      (0x04#8, .pack32), (0x05#8, .pack64), (0x08#8, .kisslk), (0x10#8, .gettime)]

/-- 30_encoding.md R91: a step is enabled exactly when `(sel AND mask) = match`, and in Idle, Done,
Failed and the reserved code 7 none is. -/
def Obligations.StepMapIsExact : Prop :=
  (∀ (sel : BitVec 5) (i : Instr), decodeSelector sel = .ok i ↔
    ∃ row ∈ [(Instr.send, 0b00001#5, 0b00111#5), (.poll, 0b00010#5, 0b01111#5),
      (.validate, 0b01010#5, 0b01111#5), (.compute, 0b00011#5, 0b00111#5),
      (.sync, 0b00100#5, 0b10111#5), (.wake, 0b10100#5, 0b10111#5)],
      row.1 = i ∧ sel &&& row.2.2 = row.2.1) ∧
  (∀ (synced rxvalid : Bool) (state : BitVec 3) (i : Instr), state ∈ [0#3, 5#3, 6#3, 7#3] →
    decodeSelector (selectorOf synced rxvalid state) ≠ .ok i)

/-- 30_encoding.md R80: every well-formed bus word decodes to a transaction that encodes to it, every
transaction's word is well formed and decodes to it, and a word of another kind is rejected. -/
def Obligations.BusWordDecodeEncodeAgree : Prop :=
  (∀ t : Transaction, BusWord.wellFormed (encodeTransaction t) = true ∧
    decodeBusWord (encodeTransaction t) = .ok t) ∧
  (∀ w : BusWord, BusWord.wellFormed w = true →
    ∃ t, decodeBusWord w = .ok t ∧ encodeTransaction t = w) ∧
  (∀ w : BusWord, (∃ t, decodeBusWord w = .ok t) ↔
    busKind w = 0x00#8 ∨ busKind w = 0x01#8)

/-- 30_encoding.md R85, R86 and the bus words of the opcode table: a word issues command `i` exactly
when its kind, address and low data byte are the row's; data[63:8] is ignored. -/
def Obligations.CommandWordIgnoresHighData : Prop :=
  ∀ (w : BusWord) (i : Instr),
    (∃ t, decodeBusWord w = .ok t ∧ decodeTransaction t = some i) ↔
      ∃ c, encode i = .command c ∧
        w &&& 0xFFFF00000000000000FF#80 = 0x011F0000000000000000#80 ||| c.setWidth 80

/-! ### Steps and turns -/

/-- 00_scope.md R6, 20_memory.md R70 as the model realises them (log 1): a step is the turn of one
agent, the first scheduled one; where none is scheduled it is a free one, whatever it is. -/
def Obligations.StepTakesUpcomingTurn : Prop :=
  (∀ (s : State) (t : Turn) (ts : List Turn), s.sched.turns = t :: ts →
    step s = takeTurn t { s with sched := { s.sched with turns := ts } }) ∧
  (∀ s : State, s.sched.turns = [] →
    step s = takeTurn (Config.nextTurn s.sched.turnCount)
      { s with sched := { s.sched with turnCount := s.sched.turnCount + 1 } })

/-- 30_encoding.md R85, 10_state.md R39: a write to CMD that is accepted runs the command its low
byte decodes to. The schedule and the queue are the model's (log 1, log 4). -/
def Obligations.BusStepRunsDecodedCommand : Prop :=
  ∀ (s : State) (ts : List Turn) (w : BusWord) (rest : List BusWord) (d : Word) (i : Instr),
    s.sched.turns = .bus :: ts → s.host.queue = w :: rest →
    decodeBusWord w = .ok (.write 0x1F#8 d) → decodeCommand (d.extractLsb' 0 8) = .ok i →
    s.csr.state ∈ [0#3, 5#3, 6#3] →
    step s = exec i { s with
      sched := { s.sched with turns := ts }, host := { s.host with queue := rest } }

/-- 30_encoding.md R90, R91: the engine's turn runs the step its selector decodes to. The schedule
is the model's (log 1). -/
def Obligations.EngineStepRunsSelectedStep : Prop :=
  ∀ (s : State) (ts : List Turn) (i : Instr), s.sched.turns = .engine :: ts →
    decodeSelector (selectorOf s.csr.synced s.csr.rxvalid s.csr.state) = .ok i →
    step s = exec i { s with sched := { s.sched with turns := ts } }

/-- How a program is placed (log 16): the step after `withFetchWord` runs the instruction that the
table word decodes to, in the state `u`. For an engine step `u` is `s` but for STATE, RXVALID, SYNCED
and, where POLL or WAKE would be held, MSPOLL or MSSYNC; `u`'s selector is that step's and it is not
held. For a command `u` is `s` but for STATE, which accepts commands and is kept where it did. -/
def Obligations.PlacedInstructionRunsNext : Prop :=
  ∀ (s : State) (nbits w : Nat) (i : Instr), decodeTableWord nbits w = some i →
    ∃ u, step (s.withFetchWord nbits w) = exec i u ∧
      ((i.isEngineStep = true ∧ decodeSelector u.selector = .ok i ∧ engineEnabled u = true ∧
          u = { s with csr := { s.csr with
            state := u.csr.state, rxvalid := u.csr.rxvalid, synced := u.csr.synced
            mspoll := u.csr.mspoll, mssync := u.csr.mssync } } ∧
          (i ≠ .poll → u.csr.mspoll = s.csr.mspoll) ∧ (i ≠ .wake → u.csr.mssync = s.csr.mssync)) ∨
        (i.isEngineStep = false ∧ u.csr.state ∈ [0#3, 5#3, 6#3] ∧
          u = { s with csr := { s.csr with state := u.csr.state } } ∧
          (s.csr.state ∈ [0#3, 5#3, 6#3] → u = s)))

/-- 30_encoding.md R87: a reserved command byte is accepted and ignored. The schedule and the queue
are the model's (log 1, log 4). -/
def Obligations.ReservedCommandIsIgnored : Prop :=
  ∀ (s : State) (ts : List Turn) (w : BusWord) (rest : List BusWord) (d : Word),
    s.sched.turns = .bus :: ts → s.host.queue = w :: rest →
    decodeBusWord w = .ok (.write 0x1F#8 d) →
    d.extractLsb' 0 8 ∉ [0x00#8, 0x01#8, 0x02#8, 0x03#8, 0x04#8, 0x05#8, 0x08#8, 0x10#8] →
    s.csr.state ∈ [0#3, 5#3, 6#3] →
    step s = .next { s with
      sched := { s.sched with turns := ts }, host := { s.host with queue := rest } }

/-- 10_state.md R50: the clock's only step. -/
def Obligations.ClockTickAdvancesMs : Prop :=
  ∀ s : State, ∃ v : Half, takeTurn .tick s = .next { s with env := { s.env with ms := v } } ∧
    v.toNat = (s.env.ms.toNat + 1) % 2 ^ 32

/-- 10_state.md R57: a reset, in any state, gives every register and both buffers their reset values
and leaves `env.ms` alone; the machine starts with the same values. -/
def Obligations.ResetGivesResetValues : Prop :=
  (∀ s : State, ∃ t, takeTurn .reset s = .next t ∧ t.env.ms = s.env.ms ∧
    t.x = State.reset.x ∧ t.csr = State.reset.csr ∧ t.mem = State.reset.mem) ∧
  (∀ a : Addr, a.toNat < 0x10 → hostRead State.reset a = 0) ∧
  State.reset.csr = {
    state := 0, err := 0, rxvalid := false, synced := false, timeout := 1024, pollcnt := 0,
    msstart := 0, msrecv := 0, mspoll := 0, mscomp := 0, mssync := 0, sleepms := 0, kiss := 0,
    kissidx := 15 } ∧
  (∀ k < 48, memRead8 State.reset.mem (128 + k) = 0 ∧ memRead8 State.reset.mem (192 + k) = 0)

/-! ### The host's bus -/

/-- 10_state.md R22, R47, 20_memory.md R66: in every state a host read that is the oldest transaction
issued is served in the bus's turn, returns the value the location has, and changes nothing else. The
schedule (log 1), the first-in first-out queue (log 4) and where the value stands (log 5) are the
model's choices; a read behind a held write waits (`HostWriteIsHeldWhileBusy`). -/
def Obligations.HostReadIsServedInEveryState : Prop :=
  ∀ (s : State) (ts : List Turn) (w : BusWord) (rest : List BusWord) (a : Addr),
    s.sched.turns = .bus :: ts → s.host.queue = w :: rest → decodeBusWord w = .ok (.read a) →
    step s = .next { s with
      sched := { s.sched with turns := ts }, host := { queue := rest, rdata := some (hostRead s a) } }

/-- 10_state.md R21, R30, R33, R46: what a host read of each address returns. -/
def Obligations.HostReadAddressMap : Prop :=
  ∀ s : State,
    [0x00#8, 0x01#8, 0x02#8, 0x03#8, 0x04#8, 0x05#8, 0x06#8, 0x07#8, 0x08#8, 0x09#8, 0x0A#8, 0x0B#8,
      0x0C#8, 0x0D#8, 0x0E#8].map (hostRead s) =
      [s.x.opa, s.x.ops, s.x.opf, s.x.res, s.x.t1, s.x.t2, s.x.t3, s.x.t1r, s.x.t2r, s.x.t3r,
        s.x.t4r, s.x.delay, s.x.offset, s.x.corr, s.x.time] ∧
    [0x13#8, 0x14#8, 0x15#8, 0x16#8, 0x17#8, 0x18#8, 0x19#8, 0x1A#8, 0x1B#8].map (hostRead s) =
      [s.csr.timeout, s.csr.pollcnt, s.csr.msstart, s.csr.msrecv, s.csr.mspoll, s.csr.mscomp,
        s.csr.mssync, s.csr.sleepms, s.csr.kiss].map (BitVec.setWidth 64) ∧
    hostRead s 0x10#8 = s.csr.state.setWidth 64 ∧ hostRead s 0x11#8 = s.csr.err.setWidth 64 ∧
    hostRead s 0x1C#8 = s.csr.kissidx.setWidth 64 ∧
    (hostRead s 0x12#8).toNat = s.csr.rxvalid.toNat + 2 * s.csr.synced.toNat +
      (if s.csr.state ∈ [1#3, 2#3, 3#3, 4#3] then 4 else 0) ∧
    (∀ k : Nat, k < 48 →
      hostRead s (BitVec.ofNat 8 (128 + k)) = (memRead8 s.mem (128 + k)).setWidth 64 ∧
      hostRead s (BitVec.ofNat 8 (192 + k)) = (memRead8 s.mem (192 + k)).setWidth 64) ∧
    (∀ a : Addr, a = 0x0F#8 ∨ a = 0x1D#8 ∨ a = 0x1E#8 ∨ a = 0x1F#8 ∨ (0x20#8 ≤ a ∧ a ≤ 0x7F#8) ∨
      (0xB0#8 ≤ a ∧ a ≤ 0xBF#8) ∨ 0xF0#8 ≤ a → hostRead s a = 0)

/-- 10_state.md R21, R22, R30, R46: what an accepted host write to an address other than CMD does.
The schedule and the queue are the model's (log 1, log 4). -/
def Obligations.HostWriteAddressMap : Prop :=
  ∀ (s : State) (ts : List Turn) (w : BusWord) (rest : List BusWord) (a : Addr) (d : Word),
    s.sched.turns = .bus :: ts → s.host.queue = w :: rest →
    decodeBusWord w = .ok (.write a d) → s.csr.state ∈ [0#3, 5#3, 6#3] → a ≠ 0x1F#8 →
    step s = .next { s with
      sched := { s.sched with turns := ts }
      host := { s.host with queue := rest }
      x := { s.x with
        opa := if a = 0x00#8 then d else s.x.opa
        ops := if a = 0x01#8 then d else s.x.ops
        opf := if a = 0x02#8 then d else s.x.opf
        t1 := if a = 0x04#8 then d else s.x.t1 }
      csr := { s.csr with
        timeout := if a = 0x13#8 then d.extractLsb' 0 32 else s.csr.timeout } }

/-- 10_state.md R47: while busy a host write is neither performed nor dropped. The write stays in the
model's queue (log 1, log 2, log 4); and, since host transactions take effect in the order issued
(20_memory.md R71), a READ issued behind it is not served before it (log 4). -/
def Obligations.HostWriteIsHeldWhileBusy : Prop :=
  ∀ (s : State) (ts : List Turn) (w : BusWord) (rest : List BusWord) (a : Addr) (d : Word),
    s.sched.turns = .bus :: ts → s.host.queue = w :: rest →
    decodeBusWord w = .ok (.write a d) → s.csr.state ∈ [1#3, 2#3, 3#3, 4#3] →
    step s = .next { s with sched := { s.sched with turns := ts } } ∧
    (∀ (r : BusWord) (later : List BusWord) (b : Addr),
      rest = r :: later → decodeBusWord r = .ok (.read b) →
      ∃ t, step s = .next t ∧ t.host.queue = w :: r :: later ∧ t.host.rdata = s.host.rdata)

/-- 10_state.md R26, R47, 00_scope.md R9 as the model realises them (log 2): a command in a busy
state and an engine step that its selector does not enable change nothing. -/
def Obligations.NotEnabledInstructionChangesNothing : Prop :=
  ∀ (s : State) (i : Instr),
    (i.isEngineStep = false → s.csr.state ∈ [1#3, 2#3, 3#3, 4#3] → exec i s = .next s) ∧
    (i.isEngineStep = true → (∀ j, decodeSelector s.selector = .ok j → j ≠ i) →
      exec i s = .next s)

/-! ### The codec and the kiss lookup -/

/-- 40_codec.md R112. -/
def Obligations.Sec32TakesShortSeconds : Prop :=
  decodeCommand 0x00#8 = .ok .sec32 ∧
  ∀ s : State, s.csr.state ∈ [0#3, 5#3, 6#3] →
    ∃ v : Word, exec .sec32 s = .next { s with x := { s.x with res := v } } ∧
      v.toNat = s.x.opa.toNat % 2 ^ 32 / 2 ^ 16

/-- 40_codec.md R113. -/
def Obligations.Sec64TakesLongSeconds : Prop :=
  decodeCommand 0x01#8 = .ok .sec64 ∧
  ∀ s : State, s.csr.state ∈ [0#3, 5#3, 6#3] →
    ∃ v : Word, exec .sec64 s = .next { s with x := { s.x with res := v } } ∧
      v.toNat = s.x.opa.toNat / 2 ^ 32

/-- 40_codec.md R114: the result is exactly `x[OPA][15:0] / 2^16`. -/
def Obligations.Frac32IsExact : Prop :=
  decodeCommand 0x02#8 = .ok .frac32 ∧
  ∀ s : State, s.csr.state ∈ [0#3, 5#3, 6#3] →
    ∃ v : Word, exec .frac32 s = .next { s with x := { s.x with res := v } } ∧
      f64Finite v = true ∧ f64Sign v = false ∧
      2 ^ 16 * f64Mag v = f64One * (s.x.opa.toNat % 2 ^ 16)

/-- 40_codec.md R115: the result is exactly `x[OPA][31:0] / 2^32`. -/
def Obligations.Frac64IsExact : Prop :=
  decodeCommand 0x03#8 = .ok .frac64 ∧
  ∀ s : State, s.csr.state ∈ [0#3, 5#3, 6#3] →
    ∃ v : Word, exec .frac64 s = .next { s with x := { s.x with res := v } } ∧
      f64Finite v = true ∧ f64Sign v = false ∧
      2 ^ 32 * f64Mag v = f64One * (s.x.opa.toNat % 2 ^ 32)

/-- 40_codec.md R116, R118: seconds `x[OPS][15:0]` above the field `trunc(real(f) * 2^16) mod 2^16`;
for a non-finite `x[OPF]` the field is any value (log 10 counts it), the rest as before. -/
def Obligations.Pack32PacksBothFields : Prop :=
  decodeCommand 0x04#8 = .ok .pack32 ∧
  ∀ s : State, s.csr.state ∈ [0#3, 5#3, 6#3] →
    ∃ (v : Word) (n : Nat),
      exec .pack32 s = .next { s with x := { s.x with res := v }, freeCount := n } ∧
      v.toNat / 2 ^ 16 = s.x.ops.toNat % 2 ^ 16 ∧
      (f64Finite s.x.opf = true → n = s.freeCount ∧
        ((v.toNat % 2 ^ 16 : Nat) : Int) =
          (2 ^ 16 * f64Units s.x.opf).tdiv f64One % 2 ^ 16)

/-- 40_codec.md R117, R118: seconds `x[OPS][31:0]` above the field `trunc(real(f) * 2^32) mod 2^32`;
for a non-finite `x[OPF]` the field is any value (log 10 counts it), the rest as before. -/
def Obligations.Pack64PacksBothFields : Prop :=
  decodeCommand 0x05#8 = .ok .pack64 ∧
  ∀ s : State, s.csr.state ∈ [0#3, 5#3, 6#3] →
    ∃ (v : Word) (n : Nat),
      exec .pack64 s = .next { s with x := { s.x with res := v }, freeCount := n } ∧
      v.toNat / 2 ^ 32 = s.x.ops.toNat % 2 ^ 32 ∧
      (f64Finite s.x.opf = true → n = s.freeCount ∧
        ((v.toNat % 2 ^ 32 : Nat) : Int) =
          (2 ^ 32 * f64Units s.x.opf).tdiv f64One % 2 ^ 32)

/-- 40_codec.md R119, both widths and both directions. Forward: SEC gives the seconds back and FRAC
gives `floor(real(f) * 2^N) / 2^N`, at most `real(f)` and greater than `real(f) - 2^-N`, equal to it
exactly when `real(f)` is a multiple of `2^-N`. Backward: PACK of SEC and FRAC is the timestamp. -/
def Obligations.CodecRoundTripLaw : Prop :=
  ∀ row ∈ [(16, Instr.pack32, Instr.sec32, Instr.frac32), (32, .pack64, .sec64, .frac64)],
  ∀ s : State, s.csr.state ∈ [0#3, 5#3, 6#3] →
    (s.x.ops.toNat < 2 ^ row.1 → f64Finite s.x.opf = true → 0 ≤ f64Units s.x.opf →
      f64Units s.x.opf < f64One →
      ∃ t u v : State, exec row.2.1 s = .next t ∧
        exec row.2.2.1 { t with x := { t.x with opa := t.x.res } } = .next u ∧
        exec row.2.2.2 { t with x := { t.x with opa := t.x.res } } = .next v ∧
        u.x.res = s.x.ops ∧
        f64Finite v.x.res = true ∧ f64Sign v.x.res = false ∧
        2 ^ row.1 * f64Mag v.x.res = f64One * (2 ^ row.1 * f64Mag s.x.opf / f64One) ∧
        f64Mag v.x.res ≤ f64Mag s.x.opf ∧
        2 ^ row.1 * f64Mag s.x.opf < 2 ^ row.1 * f64Mag v.x.res + f64One ∧
        (f64Mag v.x.res = f64Mag s.x.opf ↔ f64One ∣ 2 ^ row.1 * f64Mag s.x.opf)) ∧
    (∃ u v t : State, exec row.2.2.1 s = .next u ∧ exec row.2.2.2 s = .next v ∧
      exec row.2.1 { s with x := { s.x with ops := u.x.res, opf := v.x.res } } = .next t ∧
      t.x.res.toNat = s.x.opa.toNat % 2 ^ (2 * row.1))

/-- 44_kiss.md R200 to R203, 93_implementation_defined.md section 2: the table holds fourteen pairwise
distinct codes, DENY, RATE, RSTR and AUTH among them; KISSLK gives the index of the one entry that
matches all 32 bits, or 14. The other ten codes and the order are the spec's default (log 11). -/
def Obligations.KisslkFindsTheCode : Prop :=
  decodeCommand 0x08#8 = .ok .kisslk ∧
  kissTable.length = 14 ∧ kissTable.Nodup ∧
  (∀ code ∈ [0x44454E59#32, 0x52415445#32, 0x52535452#32, 0x41555448#32], code ∈ kissTable) ∧
  ∀ s : State, s.csr.state ∈ [0#3, 5#3, 6#3] →
    ∃ v : Word, exec .kisslk s = .next { s with x := { s.x with res := v } } ∧
      ((v.toNat < 14 ∧ kissTable[v.toNat]? = some (s.x.opa.extractLsb' 0 32)) ∨
        (v = 14 ∧ s.x.opa.extractLsb' 0 32 ∉ kissTable)) ∧
      (∀ n : Nat, kissTable[n]? = some (s.x.opa.extractLsb' 0 32) → n = v.toNat)

/-! ### GETTIME -/

/-- 42_engine_request_validate.md R150, R151, R152, 30_encoding.md R101: a GETTIME with nonzero
arguments clears the per-exchange state, builds the request image and goes to RequestBuilt. -/
def Obligations.GettimeBuildsTheRequest : Prop :=
  decodeCommand 0x10#8 = .ok .gettime ∧
  ∀ s : State, s.csr.state ∈ [0#3, 5#3, 6#3] → s.mem.wf = true → s.x.t1 ≠ 0 → s.csr.timeout ≠ 0 →
    ∃ m : Memory, exec .gettime s = .next { s with
        x := { s.x with
          t2 := 0, t3 := 0, t1r := 0, t2r := 0, t3r := 0, t4r := 0, delay := 0, offset := 0,
          corr := 0, time := 0 }
        csr := {
          state := 1, err := 0, rxvalid := false, synced := false, timeout := s.csr.timeout,
          pollcnt := 0, msstart := s.env.ms, msrecv := 0, mspoll := 0, mscomp := 0, mssync := 0,
          sleepms := 0, kiss := 0, kissidx := 15 }
        mem := m } ∧
      (∀ k < 48, memRead8 m (128 + k) =
        if k = 0 then 0x23#8 else if k < 40 then 0 else s.x.t1.extractLsb' (8 * (47 - k)) 8) ∧
      (∀ k < 48, memRead8 m (192 + k) = 0) ∧
      (∀ a, inBuffer a = false → memRead8 m a = memRead8 s.mem a)

/-- 42_engine_request_validate.md R153: with a zero argument GETTIME fails after the clear and before
the build. -/
def Obligations.GettimeRejectsZeroArguments : Prop :=
  ∀ s : State, s.csr.state ∈ [0#3, 5#3, 6#3] → s.mem.wf = true → s.x.t1 = 0 ∨ s.csr.timeout = 0 →
    ∃ m : Memory, exec .gettime s = .next { s with
        x := { s.x with
          t2 := 0, t3 := 0, t1r := 0, t2r := 0, t3r := 0, t4r := 0, delay := 0, offset := 0,
          corr := 0, time := 0 }
        csr := {
          state := 6, err := 1, rxvalid := false, synced := false, timeout := s.csr.timeout,
          pollcnt := 0, msstart := 0, msrecv := 0, mspoll := 0, mscomp := 0, mssync := 0,
          sleepms := 0, kiss := 0, kissidx := 15 }
        mem := m } ∧
      (∀ k < 48, memRead8 m (128 + k) = 0 ∧ memRead8 m (192 + k) = 0) ∧
      (∀ a, inBuffer a = false → memRead8 m a = memRead8 s.mem a)

/-! ### SEND and POLL -/

/-- 41_transport.md R130, R131, R132, 20_memory.md R63: the outcomes of SEND in the order of its
checks. Once the network is up the transport gets the 48 bytes of TXBUF, byte 0 first; that they are
recorded in `sent` is the model's choice (log 7). -/
def Obligations.SendOutcomes : Prop :=
  ∀ s : State, s.csr.state = 1 →
    (s.env.netUp = false →
      exec .send s = .next { s with csr := { s.csr with err := 2, state := 6 } }) ∧
    (s.env.netUp = true → ∃ bytes : List Byte,
      exec .send s = .next { s with
        env := { s.env with sent := some bytes }
        csr := match s.env.sendStatus with
          | .ok => { s.csr with state := 2 }
          | .addrFail => { s.csr with err := 3, state := 6 }
          | .enqFail => { s.csr with err := 4, state := 6 }
          | .finFail => { s.csr with err := 5, state := 6 } } ∧
      bytes.length = 48 ∧ ∀ k < 48, bytes[k]? = some (memRead8 s.mem (128 + k)))

/-- 41_transport.md R134, R136, 10_state.md R53: a poll that finds no datagram, or one of length
zero. That the transport's answer is then none is the model's form of it (log 3, log 20). -/
def Obligations.PollCountsEmptyPoll : Prop :=
  ∀ s : State, s.csr.state = 2 → s.csr.rxvalid = false →
    s.csr.pollcnt = 0 ∨ s.env.ms ≠ s.csr.mspoll → s.env.rx = none ∨ s.env.rx = some [] →
    exec .poll s = .next { s with
      env := { s.env with rx := none }
      csr := { s.csr with
        pollcnt := s.csr.pollcnt + 1, mspoll := s.env.ms
        err := if s.csr.pollcnt + 1 = s.csr.timeout then 6 else s.csr.err
        state := if s.csr.pollcnt + 1 = s.csr.timeout then 6 else 2 } }

/-- 41_transport.md R138: a datagram of 1 to 47 bytes fails the exchange at once, nothing of it is
stored, and it is consumed. Consumed: the model's `rx` is then none (log 3). -/
def Obligations.PollRejectsShortDatagram : Prop :=
  ∀ (s : State) (bytes : List Byte), s.csr.state = 2 → s.csr.rxvalid = false →
    s.csr.pollcnt = 0 ∨ s.env.ms ≠ s.csr.mspoll → s.env.rx = some bytes →
    1 ≤ bytes.length → bytes.length ≤ 47 →
    exec .poll s = .next { s with
      env := { s.env with rx := none }, csr := { s.csr with err := 6, state := 6 } }

/-- 41_transport.md R137, 20_memory.md R63: a datagram of at least 48 bytes is accepted whatever its
content; its first 48 bytes go to RXBUF and every other byte of memory is unchanged. Consumed: the
model's `rx` is then none (log 3). -/
def Obligations.PollAcceptsReply : Prop :=
  ∀ (s : State) (bytes : List Byte), s.mem.wf = true → s.csr.state = 2 → s.csr.rxvalid = false →
    s.csr.pollcnt = 0 ∨ s.env.ms ≠ s.csr.mspoll → s.env.rx = some bytes → 48 ≤ bytes.length →
    ∃ m : Memory, exec .poll s = .next { s with
        env := { s.env with rx := none }
        csr := { s.csr with msrecv := s.env.ms, rxvalid := true }
        mem := m } ∧
      m.wf = true ∧ (∀ k < 48, some (memRead8 m (192 + k)) = bytes[k]?) ∧
      ∀ a, ¬(192 ≤ a ∧ a < 240) → memRead8 m a = memRead8 s.mem a

/-- 41_transport.md R139: after an empty poll the next POLL is held until the counter has advanced
by one; the first poll is not held; a tick of the clock lifts the hold. Held: the model's state is
unchanged (log 2). -/
def Obligations.PollIsHeldUntilATick : Prop :=
  ∀ s : State, s.csr.state = 2 → s.csr.rxvalid = false →
    (engineEnabled s = true ↔ s.csr.pollcnt = 0 ∨ s.env.ms ≠ s.csr.mspoll) ∧
    (engineEnabled s = false → exec .poll s = .next s ∧ engineEnabled (clockTick s) = true)

/-- 41_transport.md R136, R139: with no datagram ever arriving, the exchange fails with
ProtocolMismatch at exactly the TIMEOUT-th empty poll, and every poll's time is latched. The first
poll comes any number of ticks after `s`, none among them, and each later one any number of ticks
after the one before that moves the counter. The rounds are the model's (log 3). -/
def Obligations.TimeoutAfterExactlyTheBudget : Prop :=
  ∀ s : State, s.csr.state = 2 → s.csr.rxvalid = false → s.csr.pollcnt = 0 → s.csr.timeout ≠ 0 →
    ∀ gaps : List Nat, (∀ gap ∈ gaps.tail, gap % 2 ^ 32 ≠ 0) → gaps.length ≤ s.csr.timeout.toNat →
      let t := emptyPolls gaps s
      t.csr.pollcnt.toNat = gaps.length ∧
      t.env.ms.toNat = (s.env.ms.toNat + gaps.sum) % 2 ^ 32 ∧
      (gaps ≠ [] → t.csr.mspoll = t.env.ms) ∧ t.x = s.x ∧ t.mem = s.mem ∧
      (gaps.length < s.csr.timeout.toNat → t.csr.state = 2 ∧ t.csr.err = s.csr.err) ∧
      (gaps.length = s.csr.timeout.toNat → t.csr.state = 6 ∧ t.csr.err = 6)

/-! ### VALIDATE -/

/-- 42_engine_request_validate.md R160 to R167: the first of the six checks that fails is the one
reported, and nothing but ERR, STATE and (for stratum 0) the kiss record changes; a reply that
passes them all loads T2 and T3. The server's mode is 4 by the spec's default (log 13). -/
def Obligations.ValidateReportsFirstFailure : Prop :=
  ∀ s : State, s.csr.state = 2 → s.csr.rxvalid = true →
    let header := memRead8 s.mem 192
    let stratum := memRead8 s.mem 193
    let refId := memRead32 s.mem 204
    match [(decide (header &&& 7 ≠ 4), 7#4), (decide (header >>> 3 &&& 7 ≠ 4), 8#4),
        (decide (header >>> 6 = 3), 9#4), (decide (15 < stratum), 10#4),
        (decide (stratum = 0), 11#4), (decide (memRead64 s.mem 216 ≠ s.x.t1), 12#4)].find?
          (fun check => check.1) with
    | some (_, code) => exec .validate s = .next { s with csr := { s.csr with
        err := code, state := 6
        kiss := if code = 11 then refId else s.csr.kiss
        kissidx := if code = 11 then kissLookup refId else s.csr.kissidx } }
    | none => exec .validate s = .next { s with
        x := { s.x with t2 := memRead64 s.mem 224, t3 := memRead64 s.mem 232 }
        csr := { s.csr with state := 3 } }

/-- 44_kiss.md R204: the kiss table decides nothing; over any two tables the six checks answer alike
but for KISSIDX, and the lookup always has a result. -/
def Obligations.KissTableDecidesNothing : Prop :=
  ∀ (table₁ table₂ : List Half) (s : State),
    validateWith table₁ s = { validateWith table₂ s with
      csr := { (validateWith table₂ s).csr with kissidx := (validateWith table₁ s).csr.kissidx } } ∧
    ((validateWith table₁ s).csr.kissidx = s.csr.kissidx ∨
      ((validateWith table₁ s).csr.kissidx = kissLookupIn table₁ (memRead32 s.mem 204) ∧
        (validateWith table₁ s).csr.err = 11 ∧ (validateWith table₁ s).csr.state = 6))

/-- 42_engine_request_validate.md R168: VALIDATE examines no byte of the reply but bytes 0, 1, 24 to
47, and 12 to 15 when the stratum is 0. -/
def Obligations.ValidateExaminesNoOtherByte : Prop :=
  ∀ (s : State) (m : Memory), s.csr.state = 2 → s.csr.rxvalid = true →
    (∀ k < 48, k = 0 ∨ k = 1 ∨ 24 ≤ k ∨ (memRead8 s.mem 193 = 0 ∧ 12 ≤ k ∧ k ≤ 15) →
      memRead8 m (192 + k) = memRead8 s.mem (192 + k)) →
    ∃ t u : State, exec .validate s = .next t ∧ exec .validate { s with mem := m } = .next u ∧
      u.x = t.x ∧ u.csr = t.csr ∧ t.mem = s.mem ∧ u.mem = m

/-! ### COMPUTE, SYNC, WAKE -/

/-- 43_engine_compute_sync.md R180 to R183: COMPUTE, every written operation one binary64 operation
in the written order. -/
def Obligations.ComputeFollowsTheFormulas : Prop :=
  ∀ s : State, s.csr.state = 3 →
    let real := fun v : Word =>
      f64Add (u32ToF64 (v.extractLsb' 32 32)) (f64Div (u32ToF64 (v.extractLsb' 0 32)) F64_2P32)
    let t1 := real s.x.t1
    let t2 := real s.x.t2
    let t3 := real s.x.t3
    let el := s.csr.msrecv - s.csr.msstart
    let t4 := f64Add t1 (f64Div (u32ToF64 el) F64_1000)
    exec .compute s = .next { s with
      x := { s.x with
        t1r := t1, t2r := t2, t3r := t3, t4r := t4
        delay := f64Sub (f64Sub t4 t1) (f64Sub t3 t2)
        offset := f64Div (f64Add (f64Sub t2 t1) (f64Sub t3 t4)) F64_TWO }
      csr := { s.csr with mscomp := s.env.ms, state := 4 } }

/-- 40_codec.md R121: `ts_to_real(v)` is the correctly rounded value of `v / 2^32`, exact for seconds
below 2^21 and a multiple of 2^-21 for seconds from 2^31 on. -/
def Obligations.TimestampConversionRoundsOnce : Prop :=
  (∀ v : Word, tsToReal v = f64RN false (2 ^ 1042 * v.toNat) 1) ∧
  (∀ v : Word, v.toNat / 2 ^ 32 < 2 ^ 21 →
    f64Finite (tsToReal v) = true ∧ f64Sign (tsToReal v) = false ∧
      f64Mag (tsToReal v) = 2 ^ 1042 * v.toNat) ∧
  (∀ v : Word, 2 ^ 31 ≤ v.toNat / 2 ^ 32 → 2 ^ 1053 ∣ f64Mag (tsToReal v)) ∧
  tsToReal 0xFFFFFFFFFFFFFFFF#64 = 0x41F0000000000000#64

/-- 43_engine_compute_sync.md R184(a): whatever the timestamps and the latches, COMPUTE's values are
finite, the four times nonnegative, and their magnitudes in the rule's ranges. -/
def Obligations.ComputeValuesAreFinite : Prop :=
  ∀ s : State, s.csr.state = 3 → ∃ t, exec .compute s = .next t ∧
    NonnegAtMostPow2 t.x.t1r 32 ∧ NonnegAtMostPow2 t.x.t2r 32 ∧ NonnegAtMostPow2 t.x.t3r 32 ∧
    NonnegAtMostPow2 t.x.t4r 33 ∧ f64Mag t.x.t4r < (2 ^ 32 + 2 ^ 23) * f64One ∧
    AtMostPow2 t.x.delay 34 ∧ f64Mag t.x.delay < 2 ^ 34 * f64One ∧
    AtMostPow2 t.x.offset 34 ∧ f64Mag t.x.offset < 2 ^ 34 * f64One

/-- 43_engine_compute_sync.md R185, R188: SYNC. For a corrected time that is finite, as it is in
every reachable state, all is determined; for another the two converted values would be any. The
local clock is `x[T4R]`, the spec's default (log 12); the free values are the model's (log 10, log
27). -/
def Obligations.SyncFollowsTheFormulas : Prop :=
  ∀ s : State, s.csr.state = 4 → s.csr.synced = false →
    let el := s.env.ms - s.csr.mscomp
    let c := f64Add (f64Add (f64Add F64_ONE s.x.offset) s.x.t4r) (f64Div (u32ToF64 el) F64_1000)
    let rem := f64Sub F64_ONE (f64Sub c (f64Floor c))
    ∃ (time sleep : Half) (n : Nat), exec .sync s = .next { s with
        x := { s.x with corr := c, time := time.setWidth 64 }
        csr := { s.csr with sleepms := sleep, mssync := s.env.ms, synced := true }
        freeCount := n } ∧
      (f64Finite c = true → n = s.freeCount ∧
        (∀ free, time = f64ToUint c 0 32 free) ∧
        (∀ free, sleep = f64ToUint (f64Mul rem F64_1000) 0 32 free) ∧
        (time.toNat : Int) = (f64Units c).tdiv f64One % 2 ^ 32)

/-- 43_engine_compute_sync.md R189(a): the sleep is at most 1000 ms, and 1000 ms when the corrected
time is a whole number. -/
def Obligations.SleepIsAtMostOneSecond : Prop :=
  ∀ (c : Word) (free : Half), f64Finite c = true →
    (sleepLength c free).toNat ≤ 1000 ∧
    ((f64One : Int) ∣ f64Units c → sleepLength c free = 1000)

/-- 43_engine_compute_sync.md R190: WAKE is held while the sleep has not elapsed, and then gives
Done and changes nothing else. Held: the model's state is unchanged (log 2). -/
def Obligations.WakeEndsTheSleep : Prop :=
  ∀ s : State, s.csr.state = 4 → s.csr.synced = true →
    (s.csr.sleepms ≤ s.env.ms - s.csr.mssync →
      exec .wake s = .next { s with csr := { s.csr with state := 5 } }) ∧
    (¬ s.csr.sleepms ≤ s.env.ms - s.csr.mssync → exec .wake s = .next s)

/-! ### Failures -/

/-- 60_exceptions.md R241, R244: `raise Failed(reason)` writes ERR with the reason's code and STATE,
and nothing else; the codes are 1 to 12 in the order of the list. -/
def Obligations.RaiseFailedWritesErrAndState : Prop :=
  (∀ (r : Reason) (s : State),
    raiseFailed r s = { s with csr := { s.csr with err := reasonCode r, state := 6 } }) ∧
  [Reason.invalidArgument, .networkUnavailable, .addressUnavailable, .overflow, .ioError,
    .protocolMismatch, .unsupportedOperation, .unsupportedProtocol, .noDataAvailable,
    .unsupportedProtocolFamily, .temporarilyUnavailable, .badMessage].map reasonCode =
    [1, 2, 3, 4, 5, 6, 7, 8, 9, 10, 11, 12]

/-! ### Binary64 -/

/-- 45_binary64.md R211: `RN` is nearest, ties to the pattern whose fraction is even, and from
`2^1024 - 2^970` on the infinity of the sign. -/
def Obligations.RoundingIsToNearestEven : Prop :=
  ∀ (neg : Bool) (num den : Nat), 0 < den →
    let r : Int := if neg then -(num : Int) else num
    let p := f64RN neg num den
    (f64Finite p = true → ∀ q, f64Finite q = true →
      |den * f64Units p - r| ≤ |den * f64Units q - r| ∧
      (|den * f64Units p - r| = |den * f64Units q - r| → f64Units q ≠ f64Units p →
        f64Frac p % 2 = 0)) ∧
    (f64Finite p = false ↔ (2 ^ 1024 - 2 ^ 970) * f64One * den ≤ num) ∧
    (f64Finite p = false → p = f64Inf neg) ∧ f64Sign p = neg

/-- 45_binary64.md R215, R216: sum, difference, product and quotient of finite patterns are the exact
ones rounded once (`RoundingIsToNearestEven` says what that is), a zero sum with the sign R215 gives, a
product and a quotient with the exclusive or of the signs. Division by 2.0, 2^16 and 2^32 is exact where
the result is normal; division of a millisecond count by 1000.0 gives the nearest pattern. -/
def Obligations.SumsAreExactThenRounded : Prop :=
  (∀ a b : Word, f64Finite a = true → f64Finite b = true →
    f64Add a b = (if f64Units a + f64Units b = 0 then
        if a = 0x8000000000000000#64 ∧ b = 0x8000000000000000#64 then 0x8000000000000000#64 else 0
      else f64RN (decide (f64Units a + f64Units b < 0)) (f64Units a + f64Units b).natAbs 1) ∧
    f64Sub a b = (if f64Units a - f64Units b = 0 then
        if a = 0x8000000000000000#64 ∧ b = 0 then 0x8000000000000000#64 else 0
      else f64RN (decide (f64Units a - f64Units b < 0)) (f64Units a - f64Units b).natAbs 1) ∧
    f64Sub a a = 0 ∧
    f64Mul a b = f64RN (f64Sign a ^^ f64Sign b) (f64Units a * f64Units b).natAbs f64One ∧
    f64Sign (f64Mul a b) = (f64Sign a ^^ f64Sign b) ∧
    (f64Units b ≠ 0 →
      f64Div a b =
        f64RN (f64Sign a ^^ f64Sign b) (f64One * (f64Units a).natAbs) (f64Units b).natAbs ∧
      f64Sign (f64Div a b) = (f64Sign a ^^ f64Sign b))) ∧
  (∀ row ∈ [(1, F64_TWO), (16, F64_2P16), (32, F64_2P32)], ∀ a : Word, f64Finite a = true →
    row.1 < f64Exp a ∨ f64Units a = 0 →
    f64Finite (f64Div a row.2) = true ∧ 2 ^ row.1 * f64Units (f64Div a row.2) = f64Units a) ∧
  (∀ (ms : Half) (q : Word), f64Finite q = true →
    let p := f64Div (u32ToF64 ms) F64_1000
    f64Finite p = true ∧
      |1000 * f64Units p - f64One * ms.toNat| ≤ |1000 * f64Units q - f64One * ms.toNat|)

/-- 45_binary64.md R217: the floor is exact, +0.0 on [0, 1), and for `a` ≥ 0 the fractional part
`a - floor(a)` is computed without rounding and lies in [0, 1). -/
def Obligations.FloorIsExact : Prop :=
  ∀ a : Word, f64Finite a = true →
    f64Finite (f64Floor a) = true ∧
    f64Units (f64Floor a) = f64One * (f64Units a / f64One) ∧
    (0 ≤ f64Units a → f64Units a < f64One → f64Floor a = 0) ∧
    (0 ≤ f64Units a → f64Finite (f64Sub a (f64Floor a)) = true ∧
      f64Units (f64Sub a (f64Floor a)) = f64Units a % f64One ∧
      0 ≤ f64Units (f64Sub a (f64Floor a)) ∧ f64Units (f64Sub a (f64Floor a)) < f64One)

/-! ### Memory -/

/-- 20_memory.md R61: big-endian reads and writes: byte `i` of a field is bits
`[8(n-i)-1 : 8(n-i-1)]` of its value; a write changes the field's bytes and no other. -/
def Obligations.FieldsAreBigEndian : Prop :=
  (∀ (m : Memory) (a : Nat), ∀ i < 8,
    (memRead64 m a).extractLsb' (8 * (7 - i)) 8 = memRead8 m (a + i)) ∧
  (∀ (m : Memory) (a : Nat), ∀ i < 4,
    (memRead32 m a).extractLsb' (8 * (3 - i)) 8 = memRead8 m (a + i)) ∧
  (∀ (m : Memory) (a : Nat) (v : Word), m.wf = true → (∀ i < 8, inBuffer (a + i) = true) →
    memRead64 (memWrite64 m a v) a = v ∧
    (∀ i < 8, memRead8 (memWrite64 m a v) (a + i) = v.extractLsb' (8 * (7 - i)) 8) ∧
    ∀ b, ¬(a ≤ b ∧ b < a + 8) → memRead8 (memWrite64 m a v) b = memRead8 m b) ∧
  (∀ (m : Memory) (a b : Nat) (v : Byte), m.wf = true →
    memRead8 (memWrite8 m a v) b = if b = a then v else memRead8 m b)

/-! ### Invariants that every step keeps -/

/-- 10_state.md R25, R32: `csr.ERR` ≠ 0 if and only if `csr.STATE` = Failed; STATE never takes the
reserved code 7, ERR never one of 13 to 15. -/
def Obligations.StepKeepsErrIffFailed : Prop :=
  ∀ s t : State, step s = .next t →
    (ErrIffFailed s → ErrIffFailed t) ∧ (LegalCodes s → LegalCodes t)

/-- 10_state.md R26, R27: RXVALID and SYNCED agree with STATE. -/
def Obligations.StepKeepsFlagsAgree : Prop :=
  ∀ s t : State, FlagsAgree s → step s = .next t → FlagsAgree t

/-- 10_state.md R23, 60_exceptions.md R245: the results no step has reached read zero, in every
Failed state among them. -/
def Obligations.StepKeepsUnreachedZero : Prop :=
  ∀ s t : State, UnreachedZero s → step s = .next t → UnreachedZero t

/-- 10_state.md R35: while polling, POLLCNT is below TIMEOUT. -/
def Obligations.StepKeepsPollBudget : Prop :=
  ∀ s t : State, PollBudget s → step s = .next t → PollBudget t

/-- 10_state.md R38: KISS and KISSIDX record a lookup exactly after a TemporarilyUnavailable. -/
def Obligations.StepKeepsKissRecord : Prop :=
  ∀ s t : State, ErrIffFailed s → KissRecord s → step s = .next t → KissRecord t

/-- 20_memory.md R73, 30_encoding.md R101, 42_engine_request_validate.md R151, R166, 41_transport.md
R138: while busy TXBUF holds the request image of `x[T1]`, and RXBUF is zero until a reply is accepted.
That memory stays canonical is a property of the model's own form of it (log 17). -/
def Obligations.StepKeepsBufferImage : Prop :=
  ∀ s t : State, BufferImage s → step s = .next t → BufferImage t

/-- 45_binary64.md R214, 43_engine_compute_sync.md R184, R189: every real value stays finite and in its
range, DELAY and OFFSET stay what the formulas give for the four times, CORR is finite, not negative
and below 2^33, and positive once SYNC has written it (R189(b)), and the sleep is at most 1000 ms. -/
def Obligations.StepKeepsRealsInRange : Prop :=
  ∀ s t : State, RealsInRange s → step s = .next t → RealsInRange t

/-- The state after reset has all of these invariants. The values that R57 gives suffice; those of
log 8 are not used. -/
def Obligations.ResetHasTheInvariants : Prop :=
  ErrIffFailed State.reset ∧ LegalCodes State.reset ∧ FlagsAgree State.reset ∧
    UnreachedZero State.reset ∧ PollBudget State.reset ∧ KissRecord State.reset ∧
    BufferImage State.reset ∧ RealsInRange State.reset

/-! ### Rules of the whole machine -/

/-- 10_state.md R26: no other transition of STATE exists; each is made by the agent named there.
Whose turn it is follows the model's schedule (log 1). -/
def Obligations.NoOtherTransition : Prop :=
  ∀ s t : State, step s = .next t → t.csr.state ≠ s.csr.state →
    (upcomingTurn s = .reset ∧ t.csr.state = 0) ∨
    (upcomingTurn s = .bus ∧ s.csr.state ∈ [0#3, 5#3, 6#3] ∧ t.csr.state ∈ [1#3, 6#3]) ∨
    (upcomingTurn s = .engine ∧ (s.csr.state, t.csr.state) ∈
      [(1#3, 2#3), (1#3, 6#3), (2#3, 3#3), (2#3, 6#3), (3#3, 4#3), (4#3, 5#3)])

/-- 20_memory.md R70, 10_state.md R47: while an exchange runs, no step but a reset changes a
register the host owns or RES, and only the engine's turn changes a register, a CSR or a buffer.
Whose turn it is follows the model's schedule (log 1). -/
def Obligations.OnlyTheEngineWritesWhileBusy : Prop :=
  ∀ s t : State, step s = .next t → s.csr.state ∈ [1#3, 2#3, 3#3, 4#3] →
    upcomingTurn s ≠ .reset →
    t.x.opa = s.x.opa ∧ t.x.ops = s.x.ops ∧ t.x.opf = s.x.opf ∧ t.x.res = s.x.res ∧
    t.x.t1 = s.x.t1 ∧ t.csr.timeout = s.csr.timeout ∧
    (upcomingTurn s ≠ .engine → t.x = s.x ∧ t.csr = s.csr ∧ t.mem = s.mem)

/-- 20_memory.md R71, 43_engine_compute_sync.md R191: in Done and in Failed every turn but a reset and
a bus turn that performs a GETTIME leaves the results, the CSRs and RXBUF as they are; a GETTIME that
only waits in the queue changes nothing. Whose turn it is follows the model's schedule (log 1), which
transaction the bus performs follows its queue (log 4). -/
def Obligations.ResultsStayUntilGettime : Prop :=
  ∀ s t : State, step s = .next t → s.csr.state ∈ [5#3, 6#3] → upcomingTurn s ≠ .reset →
    (upcomingTurn s = .bus → ∀ w rest d, s.host.queue = w :: rest →
      decodeBusWord w = .ok (.write 0x1F#8 d) → d.extractLsb' 0 8 ≠ 0x10#8) →
    t.mem = s.mem ∧ t.csr = { s.csr with timeout := t.csr.timeout } ∧
    t.x = { s.x with
      opa := t.x.opa, ops := t.x.ops, opf := t.x.opf, res := t.x.res, t1 := t.x.t1 }

/-- 70_reset_and_hazards.md R283: every engine step that is enabled lowers the bound on the steps
left; the bound is TIMEOUT + 5 after GETTIME. -/
def Obligations.EngineStepLowersTheBound : Prop :=
  (∀ s : State, PollBudget s → engineEnabled s = true →
    ∃ t, engineTurn s = .next t ∧ stepsLeft t < stepsLeft s) ∧
  (∀ s : State, PollBudget s → s.csr.state = 1 → stepsLeft s = s.csr.timeout.toNat + 5)

/-- 70_reset_and_hazards.md R283, 60_exceptions.md R265: while busy, at most one clock tick (for a
poll) or SLEEPMS ticks (for the sleep) enable the engine's step. -/
def Obligations.ClockTicksLiftEveryHold : Prop :=
  ∀ s : State, s.csr.state ∈ [1#3, 2#3, 3#3, 4#3] →
    ∃ n ≤ max 1 s.csr.sleepms.toNat, engineEnabled (ticks n s) = true

/-- 93_implementation_defined.md, end of section 1: nothing stops the block. A step answers a next
state as long as the host issues transactions (R80); what is no transaction is refused by name. The
refusal is the model's (log 6). -/
def Obligations.NothingStopsTheBlock : Prop :=
  (∀ s : State, HostWordsLegal s → ∃ t, step s = .next t) ∧
  (∀ (s : State) (r : Refusal), step s = .refused r →
    ∃ kind, r = .notATransaction kind ∧ kind ≠ 0x00#8 ∧ kind ≠ 0x01#8) ∧
  (∀ (s : State) (i : Instr), ∃ t, exec i s = .next t)
end

