-- ==== Sys2Proof/Laws/Memory.lean ====
section
/-! SUPPORT. The laws of buffer memory: every operation keeps the canonical form, a read after a
write gives the byte written and leaves every other byte alone, and two canonical memories that read
alike are equal. -/

namespace Sys2Proof.Machine

theorem inBuffer_iff (a : Nat) :
    inBuffer a = true ↔ (128 ≤ a ∧ a < 176) ∨ (192 ≤ a ∧ a < 240) := by
  simp [inBuffer, Config.txBase, Config.rxBase, Config.pktLen]

theorem wf_cons (a : Nat) (b : Byte) (m : Memory) :
    Memory.wf ((a, b) :: m) = true ↔
      inBuffer a = true ∧ b ≠ unlistedByte ∧ (∀ c ∈ m, a < c.1) ∧ Memory.wf m = true := by
  simp [Memory.wf, and_assoc]

/-- A memory all of whose entries lie above `a` reads zero at `a`. -/
theorem memRead8_of_above (m : Memory) (a : Nat) (h : ∀ c ∈ m, a < c.1) :
    memRead8 m a = unlistedByte := by
  induction m with
  | nil => rfl
  | cons c m ih =>
    obtain ⟨k, b⟩ := c
    have hk : a < k := h (k, b) (by simp)
    rw [memRead8, if_neg (by omega)]
    exact ih fun c hc => h c (by simp [hc])

/-- Every entry of a memory written at `a` is at `a` or was there before. -/
theorem mem_memWrite8 (m : Memory) (a : Nat) (b : Byte) (c : Host.Cell) (h : c ∈ memWrite8 m a b) :
    c.1 = a ∨ c ∈ m := by
  induction m with
  | nil =>
    unfold memWrite8 memCons at h
    split at h <;> simp_all
  | cons d m ih =>
    obtain ⟨k, b'⟩ := d
    unfold memWrite8 memCons at h
    split at h
    · split at h
      · exact .inr h
      · rcases List.mem_cons.1 h with rfl | h
        · exact .inl rfl
        · exact .inr h
    · split at h
      · split at h
        · exact .inr (List.mem_cons_of_mem _ h)
        · rcases List.mem_cons.1 h with rfl | h
          · exact .inl rfl
          · exact .inr (List.mem_cons_of_mem _ h)
      · rcases List.mem_cons.1 h with rfl | h
        · exact .inr (by simp)
        · exact (ih h).imp id (List.mem_cons_of_mem _)

theorem memCons_wf (m : Memory) (a : Nat) (b : Byte) (hm : m.wf = true) (ha : inBuffer a = true)
    (above : ∀ c ∈ m, a < c.1) : Memory.wf (memCons a b m) = true := by
  unfold memCons
  split
  · exact hm
  · next hb => exact (wf_cons a b m).2 ⟨ha, hb, above, hm⟩

/-- A byte write keeps the canonical form. -/
theorem memWrite8_wf (m : Memory) (a : Nat) (b : Byte) (hm : m.wf = true) (ha : inBuffer a = true) :
    Memory.wf (memWrite8 m a b) = true := by
  induction m with
  | nil => exact memCons_wf [] a b rfl ha (by simp)
  | cons c m ih =>
    obtain ⟨k, b'⟩ := c
    obtain ⟨hk, hb', above, hm'⟩ := (wf_cons k b' m).1 hm
    unfold memWrite8
    split
    · next lt =>
      refine memCons_wf _ a b hm ha fun c hc => ?_
      rcases List.mem_cons.1 hc with rfl | hc
      · exact lt
      · exact lt.trans (above c hc)
    · split
      · next eq => exact memCons_wf m a b hm' ha (by subst eq; exact above)
      · refine (wf_cons _ _ _).2 ⟨hk, hb', fun c hc => ?_, ih hm'⟩
        rcases mem_memWrite8 m a b c hc with e | hc
        · omega
        · exact above c hc

theorem memRead8_memCons (m : Memory) (a a' : Nat) (b : Byte) (above : ∀ c ∈ m, a < c.1) :
    memRead8 (memCons a b m) a' = if a' = a then b else memRead8 m a' := by
  unfold memCons
  split
  · next hb =>
    split
    · next e => rw [e, memRead8_of_above m a above, hb]
    · rfl
  · rw [memRead8]
    exact if_congr eq_comm rfl rfl

/-- A byte read after a byte write. -/
theorem memRead8_memWrite8 (m : Memory) (a a' : Nat) (b : Byte) (hm : m.wf = true) :
    memRead8 (memWrite8 m a b) a' = if a' = a then b else memRead8 m a' := by
  induction m with
  | nil => exact memRead8_memCons [] a a' b (by simp)
  | cons c m ih =>
    obtain ⟨k, b'⟩ := c
    obtain ⟨-, -, above, hm'⟩ := (wf_cons k b' m).1 hm
    unfold memWrite8
    split
    · next lt =>
      refine memRead8_memCons _ a a' b fun c hc => ?_
      rcases List.mem_cons.1 hc with rfl | hc
      · exact lt
      · exact lt.trans (above c hc)
    · split
      · next eq =>
        subst eq
        rw [memRead8_memCons m a a' b above, memRead8]
        by_cases e : a' = a
        · simp [e]
        · rw [if_neg e, if_neg e, if_neg (Ne.symm e)]
      · next ne =>
        rw [memRead8, memRead8, ih hm']
        by_cases e : k = a'
        · subst e; rw [if_pos rfl, if_neg (Ne.symm ne), if_pos rfl]
        · rw [if_neg e, if_neg e]

/-- Writing bytes keeps the canonical form, if they all go to a buffer. -/
theorem memWriteBytes_wf (bs : List Byte) (m : Memory) (a : Nat) (hm : m.wf = true)
    (ha : ∀ i < bs.length, inBuffer (a + i) = true) : Memory.wf (memWriteBytes m a bs) = true := by
  induction bs generalizing m a with
  | nil => exact hm
  | cons b bs ih =>
    refine ih _ _ (memWrite8_wf m a b hm (ha 0 (by simp))) fun i hi => ?_
    have := ha (i + 1) (by simpa using hi)
    rwa [show a + 1 + i = a + (i + 1) by omega]

/-- A byte read after writing bytes to a buffer. -/
theorem memRead8_memWriteBytes (bs : List Byte) (m : Memory) (a a' : Nat) (hm : m.wf = true)
    (ha : ∀ i < bs.length, inBuffer (a + i) = true) :
    memRead8 (memWriteBytes m a bs) a' =
      if h : a ≤ a' ∧ a' < a + bs.length then bs[a' - a]'(by omega) else memRead8 m a' := by
  induction bs generalizing m a with
  | nil => rw [dif_neg (by simp only [List.length_nil]; omega)]; rfl
  | cons b bs ih =>
    have hb := ha 0 (by simp)
    rw [memWriteBytes, ih _ _ (memWrite8_wf m a b hm hb) fun i hi => by
      have := ha (i + 1) (by simpa using hi)
      rwa [show a + 1 + i = a + (i + 1) by omega]]
    by_cases h1 : a' = a
    · subst h1
      rw [dif_neg (by omega), memRead8_memWrite8 m a' a' b hm, if_pos rfl,
        dif_pos ⟨le_rfl, by simp⟩]
      simp
    · by_cases h2 : a + 1 ≤ a' ∧ a' < a + 1 + bs.length
      · rw [dif_pos h2, dif_pos ⟨by omega, by simp; omega⟩]
        simp [show a' - a = a' - (a + 1) + 1 by omega]
      · rw [dif_neg h2, memRead8_memWrite8 m a a' b hm, if_neg h1, dif_neg]
        simp only [List.length_cons]
        omega

theorem memReadBytes_length (m : Memory) (a n : Nat) : (memReadBytes m a n).length = n := by
  induction n generalizing a with
  | zero => rfl
  | succ n ih => simp [memReadBytes, ih]

/-- The `k`-th byte of a block read is the byte at address `a + k`. -/
theorem memReadBytes_getElem (m : Memory) (a n k : Nat) (h : k < (memReadBytes m a n).length) :
    (memReadBytes m a n)[k] = memRead8 m (a + k) := by
  induction n generalizing a k with
  | zero => simp [memReadBytes] at h
  | succ n ih =>
    cases k with
    | zero => simp [memReadBytes]
    | succ k => simp only [memReadBytes, List.getElem_cons_succ, ih]; congr 1; omega

/-- Two canonical memories that read alike are equal. -/
theorem memory_ext (m m' : Memory) (hm : m.wf = true) (hm' : m'.wf = true)
    (h : ∀ a, memRead8 m a = memRead8 m' a) : m = m' := by
  induction m generalizing m' with
  | nil =>
    cases m' with
    | nil => rfl
    | cons c m' =>
      obtain ⟨k, b⟩ := c
      have := h k
      simp only [memRead8, if_true] at this
      exact absurd this.symm ((wf_cons k b m').1 hm').2.1
  | cons c m ih =>
    obtain ⟨k, b⟩ := c
    obtain ⟨-, hb, above, hmw⟩ := (wf_cons k b m).1 hm
    cases m' with
    | nil =>
      have := h k
      simp only [memRead8, if_true] at this
      exact absurd this hb
    | cons c' m' =>
      obtain ⟨k', b'⟩ := c'
      obtain ⟨-, hb', above', hmw'⟩ := (wf_cons k' b' m').1 hm'
      have hk : k = k' := by
        by_contra ne
        rcases Nat.lt_or_gt_of_ne ne with lt | lt
        · have := h k
          rw [memRead8, if_pos rfl, memRead8, if_neg (Ne.symm ne),
            memRead8_of_above m' k fun c hc => lt.trans (above' c hc)] at this
          exact hb this
        · have := h k'
          rw [memRead8, if_neg ne, memRead8, if_pos rfl,
            memRead8_of_above m k' fun c hc => lt.trans (above c hc)] at this
          exact hb' this.symm
      subst hk
      have hbb : b = b' := by simpa [memRead8] using h k
      subst hbb
      refine congrArg _ (ih m' hmw hmw' fun a => ?_)
      by_cases e : k = a
      · subst e
        rw [memRead8_of_above m _ above, memRead8_of_above m' _ above']
      · simpa [memRead8, e] using h a

/-- The bytes of TXBUF are buffer addresses. -/
theorem inBuffer_tx (i : Nat) (h : i < 48) : inBuffer (Config.txBase + i) = true := by
  simp only [inBuffer_iff, Config.txBase]; omega

/-- The bytes of RXBUF are buffer addresses. -/
theorem inBuffer_rx (i : Nat) (h : i < 48) : inBuffer (Config.rxBase + i) = true := by
  simp only [inBuffer_iff, Config.rxBase]; omega

/-- GETTIME's clear keeps the canonical form. -/
theorem clearBuffers_wf (m : Memory) (hm : m.wf = true) : (clearBuffers m).wf = true :=
  memWriteBytes_wf _ _ _
    (memWriteBytes_wf _ _ _ hm fun i hi => inBuffer_tx i (by simpa using hi))
    fun i hi => inBuffer_rx i (by simpa using hi)

/-- A canonical memory lists only buffer addresses, so every other address reads zero. -/
theorem memRead8_outside (m : Memory) (a : Nat) (hm : m.wf = true) (ha : inBuffer a = false) :
    memRead8 m a = unlistedByte := by
  induction m with
  | nil => rfl
  | cons c m ih =>
    obtain ⟨k, b⟩ := c
    obtain ⟨hk, -, -, hm'⟩ := (wf_cons k b m).1 hm
    rw [memRead8, if_neg (by rintro rfl; simp [hk] at ha), ih hm']

/-- Clearing both buffers of a canonical memory leaves nothing listed. -/
theorem clearBuffers_eq_nil (m : Memory) (hm : m.wf = true) : clearBuffers m = [] := by
  have tx : ∀ i < (List.replicate Config.pktLen 0#8).length,
      inBuffer (Config.txBase + i) = true := fun i hi => inBuffer_tx i (by simpa using hi)
  have rx : ∀ i < (List.replicate Config.pktLen 0#8).length,
      inBuffer (Config.rxBase + i) = true := fun i hi => inBuffer_rx i (by simpa using hi)
  refine memory_ext _ _ (clearBuffers_wf m hm) rfl fun a => ?_
  by_cases ha : inBuffer a = true
  · rw [clearBuffers, memRead8_memWriteBytes _ _ _ _ (memWriteBytes_wf _ _ _ hm tx) rx,
      memRead8_memWriteBytes _ _ _ _ hm tx]
    simp only [List.length_replicate, List.getElem_replicate, memRead8]
    rw [inBuffer_iff] at ha
    split
    · rfl
    · split
      · rfl
      · simp only [Config.txBase, Config.rxBase, Config.pktLen] at *
        omega
  · rw [memRead8_outside _ a (clearBuffers_wf m hm) (by simpa using ha)]
    rfl

/-- The memory after reset has the canonical form. -/
theorem wf_nil : Memory.wf [] = true := rfl

end Sys2Proof.Machine
end

