-- ==== Sys2Proof/Laws/State.lean ====
section
/-! SUPPORT. One lemma per field per update of the state, each true by unfolding the update once and then by rfl, so
that no later proof unfolds a record update. Whole parts that an update keeps (`x`, `csr`, `mem`,
`env`, `host`, `sched`, `freeCount`) have one lemma; parts it changes have one per field. -/

namespace Sys2Proof.Machine

/-! ### raise Failed (60_exceptions.md R244) -/

@[simp] theorem raiseFailed_x (r : Reason) (s : State) :
    (raiseFailed r s).x = s.x := by simp only [raiseFailed]
@[simp] theorem raiseFailed_csr_state (r : Reason) (s : State) :
    (raiseFailed r s).csr.state = St.failed := by simp only [raiseFailed]
@[simp] theorem raiseFailed_csr_err (r : Reason) (s : State) :
    (raiseFailed r s).csr.err = reasonCode r := by simp only [raiseFailed]
@[simp] theorem raiseFailed_csr_rxvalid (r : Reason) (s : State) :
    (raiseFailed r s).csr.rxvalid = s.csr.rxvalid := by simp only [raiseFailed]
@[simp] theorem raiseFailed_csr_synced (r : Reason) (s : State) :
    (raiseFailed r s).csr.synced = s.csr.synced := by simp only [raiseFailed]
@[simp] theorem raiseFailed_csr_timeout (r : Reason) (s : State) :
    (raiseFailed r s).csr.timeout = s.csr.timeout := by simp only [raiseFailed]
@[simp] theorem raiseFailed_csr_pollcnt (r : Reason) (s : State) :
    (raiseFailed r s).csr.pollcnt = s.csr.pollcnt := by simp only [raiseFailed]
@[simp] theorem raiseFailed_csr_msstart (r : Reason) (s : State) :
    (raiseFailed r s).csr.msstart = s.csr.msstart := by simp only [raiseFailed]
@[simp] theorem raiseFailed_csr_msrecv (r : Reason) (s : State) :
    (raiseFailed r s).csr.msrecv = s.csr.msrecv := by simp only [raiseFailed]
@[simp] theorem raiseFailed_csr_mspoll (r : Reason) (s : State) :
    (raiseFailed r s).csr.mspoll = s.csr.mspoll := by simp only [raiseFailed]
@[simp] theorem raiseFailed_csr_mscomp (r : Reason) (s : State) :
    (raiseFailed r s).csr.mscomp = s.csr.mscomp := by simp only [raiseFailed]
@[simp] theorem raiseFailed_csr_mssync (r : Reason) (s : State) :
    (raiseFailed r s).csr.mssync = s.csr.mssync := by simp only [raiseFailed]
@[simp] theorem raiseFailed_csr_sleepms (r : Reason) (s : State) :
    (raiseFailed r s).csr.sleepms = s.csr.sleepms := by simp only [raiseFailed]
@[simp] theorem raiseFailed_csr_kiss (r : Reason) (s : State) :
    (raiseFailed r s).csr.kiss = s.csr.kiss := by simp only [raiseFailed]
@[simp] theorem raiseFailed_csr_kissidx (r : Reason) (s : State) :
    (raiseFailed r s).csr.kissidx = s.csr.kissidx := by simp only [raiseFailed]
@[simp] theorem raiseFailed_env (r : Reason) (s : State) :
    (raiseFailed r s).env = s.env := by simp only [raiseFailed]
@[simp] theorem raiseFailed_host (r : Reason) (s : State) :
    (raiseFailed r s).host = s.host := by simp only [raiseFailed]
@[simp] theorem raiseFailed_sched (r : Reason) (s : State) :
    (raiseFailed r s).sched = s.sched := by simp only [raiseFailed]
@[simp] theorem raiseFailed_mem (r : Reason) (s : State) :
    (raiseFailed r s).mem = s.mem := by simp only [raiseFailed]
@[simp] theorem raiseFailed_freeCount (r : Reason) (s : State) :
    (raiseFailed r s).freeCount = s.freeCount := by simp only [raiseFailed]

/-! ### x[RES] <- v -/

@[simp] theorem setRes_x_opa (v : Word) (s : State) :
    (setRes v s).x.opa = s.x.opa := by simp only [setRes]
@[simp] theorem setRes_x_ops (v : Word) (s : State) :
    (setRes v s).x.ops = s.x.ops := by simp only [setRes]
@[simp] theorem setRes_x_opf (v : Word) (s : State) :
    (setRes v s).x.opf = s.x.opf := by simp only [setRes]
@[simp] theorem setRes_x_res (v : Word) (s : State) :
    (setRes v s).x.res = v := by simp only [setRes]
@[simp] theorem setRes_x_t1 (v : Word) (s : State) :
    (setRes v s).x.t1 = s.x.t1 := by simp only [setRes]
@[simp] theorem setRes_x_t2 (v : Word) (s : State) :
    (setRes v s).x.t2 = s.x.t2 := by simp only [setRes]
@[simp] theorem setRes_x_t3 (v : Word) (s : State) :
    (setRes v s).x.t3 = s.x.t3 := by simp only [setRes]
@[simp] theorem setRes_x_t1r (v : Word) (s : State) :
    (setRes v s).x.t1r = s.x.t1r := by simp only [setRes]
@[simp] theorem setRes_x_t2r (v : Word) (s : State) :
    (setRes v s).x.t2r = s.x.t2r := by simp only [setRes]
@[simp] theorem setRes_x_t3r (v : Word) (s : State) :
    (setRes v s).x.t3r = s.x.t3r := by simp only [setRes]
@[simp] theorem setRes_x_t4r (v : Word) (s : State) :
    (setRes v s).x.t4r = s.x.t4r := by simp only [setRes]
@[simp] theorem setRes_x_delay (v : Word) (s : State) :
    (setRes v s).x.delay = s.x.delay := by simp only [setRes]
@[simp] theorem setRes_x_offset (v : Word) (s : State) :
    (setRes v s).x.offset = s.x.offset := by simp only [setRes]
@[simp] theorem setRes_x_corr (v : Word) (s : State) :
    (setRes v s).x.corr = s.x.corr := by simp only [setRes]
@[simp] theorem setRes_x_time (v : Word) (s : State) :
    (setRes v s).x.time = s.x.time := by simp only [setRes]
@[simp] theorem setRes_csr (v : Word) (s : State) :
    (setRes v s).csr = s.csr := by simp only [setRes]
@[simp] theorem setRes_env (v : Word) (s : State) :
    (setRes v s).env = s.env := by simp only [setRes]
@[simp] theorem setRes_host (v : Word) (s : State) :
    (setRes v s).host = s.host := by simp only [setRes]
@[simp] theorem setRes_sched (v : Word) (s : State) :
    (setRes v s).sched = s.sched := by simp only [setRes]
@[simp] theorem setRes_mem (v : Word) (s : State) :
    (setRes v s).mem = s.mem := by simp only [setRes]
@[simp] theorem setRes_freeCount (v : Word) (s : State) :
    (setRes v s).freeCount = s.freeCount := by simp only [setRes]

/-! ### csr.STATE <- target -/

@[simp] theorem setState_x (t : BitVec 3) (s : State) :
    (setState t s).x = s.x := by simp only [setState]
@[simp] theorem setState_csr_state (t : BitVec 3) (s : State) :
    (setState t s).csr.state = t := by simp only [setState]
@[simp] theorem setState_csr_err (t : BitVec 3) (s : State) :
    (setState t s).csr.err = s.csr.err := by simp only [setState]
@[simp] theorem setState_csr_rxvalid (t : BitVec 3) (s : State) :
    (setState t s).csr.rxvalid = s.csr.rxvalid := by simp only [setState]
@[simp] theorem setState_csr_synced (t : BitVec 3) (s : State) :
    (setState t s).csr.synced = s.csr.synced := by simp only [setState]
@[simp] theorem setState_csr_timeout (t : BitVec 3) (s : State) :
    (setState t s).csr.timeout = s.csr.timeout := by simp only [setState]
@[simp] theorem setState_csr_pollcnt (t : BitVec 3) (s : State) :
    (setState t s).csr.pollcnt = s.csr.pollcnt := by simp only [setState]
@[simp] theorem setState_csr_msstart (t : BitVec 3) (s : State) :
    (setState t s).csr.msstart = s.csr.msstart := by simp only [setState]
@[simp] theorem setState_csr_msrecv (t : BitVec 3) (s : State) :
    (setState t s).csr.msrecv = s.csr.msrecv := by simp only [setState]
@[simp] theorem setState_csr_mspoll (t : BitVec 3) (s : State) :
    (setState t s).csr.mspoll = s.csr.mspoll := by simp only [setState]
@[simp] theorem setState_csr_mscomp (t : BitVec 3) (s : State) :
    (setState t s).csr.mscomp = s.csr.mscomp := by simp only [setState]
@[simp] theorem setState_csr_mssync (t : BitVec 3) (s : State) :
    (setState t s).csr.mssync = s.csr.mssync := by simp only [setState]
@[simp] theorem setState_csr_sleepms (t : BitVec 3) (s : State) :
    (setState t s).csr.sleepms = s.csr.sleepms := by simp only [setState]
@[simp] theorem setState_csr_kiss (t : BitVec 3) (s : State) :
    (setState t s).csr.kiss = s.csr.kiss := by simp only [setState]
@[simp] theorem setState_csr_kissidx (t : BitVec 3) (s : State) :
    (setState t s).csr.kissidx = s.csr.kissidx := by simp only [setState]
@[simp] theorem setState_env (t : BitVec 3) (s : State) :
    (setState t s).env = s.env := by simp only [setState]
@[simp] theorem setState_host (t : BitVec 3) (s : State) :
    (setState t s).host = s.host := by simp only [setState]
@[simp] theorem setState_sched (t : BitVec 3) (s : State) :
    (setState t s).sched = s.sched := by simp only [setState]
@[simp] theorem setState_mem (t : BitVec 3) (s : State) :
    (setState t s).mem = s.mem := by simp only [setState]
@[simp] theorem setState_freeCount (t : BitVec 3) (s : State) :
    (setState t s).freeCount = s.freeCount := by simp only [setState]

/-! ### GETTIME's clear (42 R151) -/

@[simp] theorem clearExchange_x_opa (s : State) :
    (clearExchange s).x.opa = s.x.opa := by simp only [clearExchange]
@[simp] theorem clearExchange_x_ops (s : State) :
    (clearExchange s).x.ops = s.x.ops := by simp only [clearExchange]
@[simp] theorem clearExchange_x_opf (s : State) :
    (clearExchange s).x.opf = s.x.opf := by simp only [clearExchange]
@[simp] theorem clearExchange_x_res (s : State) :
    (clearExchange s).x.res = s.x.res := by simp only [clearExchange]
@[simp] theorem clearExchange_x_t1 (s : State) :
    (clearExchange s).x.t1 = s.x.t1 := by simp only [clearExchange]
@[simp] theorem clearExchange_x_t2 (s : State) :
    (clearExchange s).x.t2 = 0 := by simp only [clearExchange]
@[simp] theorem clearExchange_x_t3 (s : State) :
    (clearExchange s).x.t3 = 0 := by simp only [clearExchange]
@[simp] theorem clearExchange_x_t1r (s : State) :
    (clearExchange s).x.t1r = 0 := by simp only [clearExchange]
@[simp] theorem clearExchange_x_t2r (s : State) :
    (clearExchange s).x.t2r = 0 := by simp only [clearExchange]
@[simp] theorem clearExchange_x_t3r (s : State) :
    (clearExchange s).x.t3r = 0 := by simp only [clearExchange]
@[simp] theorem clearExchange_x_t4r (s : State) :
    (clearExchange s).x.t4r = 0 := by simp only [clearExchange]
@[simp] theorem clearExchange_x_delay (s : State) :
    (clearExchange s).x.delay = 0 := by simp only [clearExchange]
@[simp] theorem clearExchange_x_offset (s : State) :
    (clearExchange s).x.offset = 0 := by simp only [clearExchange]
@[simp] theorem clearExchange_x_corr (s : State) :
    (clearExchange s).x.corr = 0 := by simp only [clearExchange]
@[simp] theorem clearExchange_x_time (s : State) :
    (clearExchange s).x.time = 0 := by simp only [clearExchange]
@[simp] theorem clearExchange_csr_state (s : State) :
    (clearExchange s).csr.state = s.csr.state := by simp only [clearExchange]
@[simp] theorem clearExchange_csr_err (s : State) :
    (clearExchange s).csr.err = 0 := by simp only [clearExchange]
@[simp] theorem clearExchange_csr_rxvalid (s : State) :
    (clearExchange s).csr.rxvalid = false := by simp only [clearExchange]
@[simp] theorem clearExchange_csr_synced (s : State) :
    (clearExchange s).csr.synced = false := by simp only [clearExchange]
@[simp] theorem clearExchange_csr_timeout (s : State) :
    (clearExchange s).csr.timeout = s.csr.timeout := by simp only [clearExchange]
@[simp] theorem clearExchange_csr_pollcnt (s : State) :
    (clearExchange s).csr.pollcnt = 0 := by simp only [clearExchange]
@[simp] theorem clearExchange_csr_msstart (s : State) :
    (clearExchange s).csr.msstart = 0 := by simp only [clearExchange]
@[simp] theorem clearExchange_csr_msrecv (s : State) :
    (clearExchange s).csr.msrecv = 0 := by simp only [clearExchange]
@[simp] theorem clearExchange_csr_mspoll (s : State) :
    (clearExchange s).csr.mspoll = 0 := by simp only [clearExchange]
@[simp] theorem clearExchange_csr_mscomp (s : State) :
    (clearExchange s).csr.mscomp = 0 := by simp only [clearExchange]
@[simp] theorem clearExchange_csr_mssync (s : State) :
    (clearExchange s).csr.mssync = 0 := by simp only [clearExchange]
@[simp] theorem clearExchange_csr_sleepms (s : State) :
    (clearExchange s).csr.sleepms = 0 := by simp only [clearExchange]
@[simp] theorem clearExchange_csr_kiss (s : State) :
    (clearExchange s).csr.kiss = 0 := by simp only [clearExchange]
@[simp] theorem clearExchange_csr_kissidx (s : State) :
    (clearExchange s).csr.kissidx = 15 := by simp only [clearExchange]
@[simp] theorem clearExchange_env (s : State) :
    (clearExchange s).env = s.env := by simp only [clearExchange]
@[simp] theorem clearExchange_host (s : State) :
    (clearExchange s).host = s.host := by simp only [clearExchange]
@[simp] theorem clearExchange_sched (s : State) :
    (clearExchange s).sched = s.sched := by simp only [clearExchange]
@[simp] theorem clearExchange_mem (s : State) :
    (clearExchange s).mem = clearBuffers s.mem := by simp only [clearExchange]
@[simp] theorem clearExchange_freeCount (s : State) :
    (clearExchange s).freeCount = s.freeCount := by simp only [clearExchange]

/-! ### GETTIME's build (42 R152) -/

@[simp] theorem buildRequest_x (s : State) : (buildRequest s).x = s.x := by simp only [buildRequest]
@[simp] theorem buildRequest_csr_state (s : State) :
    (buildRequest s).csr.state = St.requestBuilt := by simp only [buildRequest]
@[simp] theorem buildRequest_csr_err (s : State) :
    (buildRequest s).csr.err = s.csr.err := by simp only [buildRequest]
@[simp] theorem buildRequest_csr_rxvalid (s : State) :
    (buildRequest s).csr.rxvalid = s.csr.rxvalid := by simp only [buildRequest]
@[simp] theorem buildRequest_csr_synced (s : State) :
    (buildRequest s).csr.synced = s.csr.synced := by simp only [buildRequest]
@[simp] theorem buildRequest_csr_timeout (s : State) :
    (buildRequest s).csr.timeout = s.csr.timeout := by simp only [buildRequest]
@[simp] theorem buildRequest_csr_pollcnt (s : State) :
    (buildRequest s).csr.pollcnt = s.csr.pollcnt := by simp only [buildRequest]
@[simp] theorem buildRequest_csr_msstart (s : State) :
    (buildRequest s).csr.msstart = s.env.ms := by simp only [buildRequest]
@[simp] theorem buildRequest_csr_msrecv (s : State) :
    (buildRequest s).csr.msrecv = s.csr.msrecv := by simp only [buildRequest]
@[simp] theorem buildRequest_csr_mspoll (s : State) :
    (buildRequest s).csr.mspoll = s.csr.mspoll := by simp only [buildRequest]
@[simp] theorem buildRequest_csr_mscomp (s : State) :
    (buildRequest s).csr.mscomp = s.csr.mscomp := by simp only [buildRequest]
@[simp] theorem buildRequest_csr_mssync (s : State) :
    (buildRequest s).csr.mssync = s.csr.mssync := by simp only [buildRequest]
@[simp] theorem buildRequest_csr_sleepms (s : State) :
    (buildRequest s).csr.sleepms = s.csr.sleepms := by simp only [buildRequest]
@[simp] theorem buildRequest_csr_kiss (s : State) :
    (buildRequest s).csr.kiss = s.csr.kiss := by simp only [buildRequest]
@[simp] theorem buildRequest_csr_kissidx (s : State) :
    (buildRequest s).csr.kissidx = s.csr.kissidx := by simp only [buildRequest]
@[simp] theorem buildRequest_env (s : State) :
    (buildRequest s).env = s.env := by simp only [buildRequest]
@[simp] theorem buildRequest_host (s : State) :
    (buildRequest s).host = s.host := by simp only [buildRequest]
@[simp] theorem buildRequest_sched (s : State) :
    (buildRequest s).sched = s.sched := by simp only [buildRequest]
@[simp] theorem buildRequest_freeCount (s : State) :
    (buildRequest s).freeCount = s.freeCount := by simp only [buildRequest]

/-! ### Handing the request over (41 R131) -/

@[simp] theorem handOver_x (s : State) : (handOver s).x = s.x := by simp only [handOver]
@[simp] theorem handOver_csr (s : State) : (handOver s).csr = s.csr := by simp only [handOver]
@[simp] theorem handOver_env_ms (s : State) :
    (handOver s).env.ms = s.env.ms := by simp only [handOver]
@[simp] theorem handOver_env_netUp (s : State) :
    (handOver s).env.netUp = s.env.netUp := by simp only [handOver]
@[simp] theorem handOver_env_sendStatus (s : State) :
    (handOver s).env.sendStatus = s.env.sendStatus := by simp only [handOver]
@[simp] theorem handOver_env_rx (s : State) :
    (handOver s).env.rx = s.env.rx := by simp only [handOver]
@[simp] theorem handOver_env_sent (s : State) :
    (handOver s).env.sent = some (requestBytes s) := by simp only [handOver]
@[simp] theorem handOver_host (s : State) : (handOver s).host = s.host := by simp only [handOver]
@[simp] theorem handOver_sched (s : State) : (handOver s).sched = s.sched := by simp only [handOver]
@[simp] theorem handOver_mem (s : State) : (handOver s).mem = s.mem := by simp only [handOver]
@[simp] theorem handOver_freeCount (s : State) :
    (handOver s).freeCount = s.freeCount := by simp only [handOver]

/-! ### Consuming a datagram (10 R53) -/

@[simp] theorem consumeRx_x (s : State) : (consumeRx s).x = s.x := by simp only [consumeRx]
@[simp] theorem consumeRx_csr (s : State) : (consumeRx s).csr = s.csr := by simp only [consumeRx]
@[simp] theorem consumeRx_env_ms (s : State) :
    (consumeRx s).env.ms = s.env.ms := by simp only [consumeRx]
@[simp] theorem consumeRx_env_netUp (s : State) :
    (consumeRx s).env.netUp = s.env.netUp := by simp only [consumeRx]
@[simp] theorem consumeRx_env_sendStatus (s : State) :
    (consumeRx s).env.sendStatus = s.env.sendStatus := by simp only [consumeRx]
@[simp] theorem consumeRx_env_rx (s : State) :
    (consumeRx s).env.rx = none := by simp only [consumeRx]
@[simp] theorem consumeRx_env_sent (s : State) :
    (consumeRx s).env.sent = s.env.sent := by simp only [consumeRx]
@[simp] theorem consumeRx_host (s : State) : (consumeRx s).host = s.host := by simp only [consumeRx]
@[simp] theorem consumeRx_sched (s : State) :
    (consumeRx s).sched = s.sched := by simp only [consumeRx]
@[simp] theorem consumeRx_mem (s : State) : (consumeRx s).mem = s.mem := by simp only [consumeRx]
@[simp] theorem consumeRx_freeCount (s : State) :
    (consumeRx s).freeCount = s.freeCount := by simp only [consumeRx]

/-! ### Accepting a reply (41 R137) -/

@[simp] theorem pollAccept_x (bytes : List Byte) (s : State) :
    (pollAccept bytes s).x = s.x := by simp only [pollAccept]
@[simp] theorem pollAccept_csr_state (bytes : List Byte) (s : State) :
    (pollAccept bytes s).csr.state = s.csr.state := by simp only [pollAccept]
@[simp] theorem pollAccept_csr_err (bytes : List Byte) (s : State) :
    (pollAccept bytes s).csr.err = s.csr.err := by simp only [pollAccept]
@[simp] theorem pollAccept_csr_rxvalid (bytes : List Byte) (s : State) :
    (pollAccept bytes s).csr.rxvalid = true := by simp only [pollAccept]
@[simp] theorem pollAccept_csr_synced (bytes : List Byte) (s : State) :
    (pollAccept bytes s).csr.synced = s.csr.synced := by simp only [pollAccept]
@[simp] theorem pollAccept_csr_timeout (bytes : List Byte) (s : State) :
    (pollAccept bytes s).csr.timeout = s.csr.timeout := by simp only [pollAccept]
@[simp] theorem pollAccept_csr_pollcnt (bytes : List Byte) (s : State) :
    (pollAccept bytes s).csr.pollcnt = s.csr.pollcnt := by simp only [pollAccept]
@[simp] theorem pollAccept_csr_msstart (bytes : List Byte) (s : State) :
    (pollAccept bytes s).csr.msstart = s.csr.msstart := by simp only [pollAccept]
@[simp] theorem pollAccept_csr_msrecv (bytes : List Byte) (s : State) :
    (pollAccept bytes s).csr.msrecv = s.env.ms := by simp only [pollAccept]
@[simp] theorem pollAccept_csr_mspoll (bytes : List Byte) (s : State) :
    (pollAccept bytes s).csr.mspoll = s.csr.mspoll := by simp only [pollAccept]
@[simp] theorem pollAccept_csr_mscomp (bytes : List Byte) (s : State) :
    (pollAccept bytes s).csr.mscomp = s.csr.mscomp := by simp only [pollAccept]
@[simp] theorem pollAccept_csr_mssync (bytes : List Byte) (s : State) :
    (pollAccept bytes s).csr.mssync = s.csr.mssync := by simp only [pollAccept]
@[simp] theorem pollAccept_csr_sleepms (bytes : List Byte) (s : State) :
    (pollAccept bytes s).csr.sleepms = s.csr.sleepms := by simp only [pollAccept]
@[simp] theorem pollAccept_csr_kiss (bytes : List Byte) (s : State) :
    (pollAccept bytes s).csr.kiss = s.csr.kiss := by simp only [pollAccept]
@[simp] theorem pollAccept_csr_kissidx (bytes : List Byte) (s : State) :
    (pollAccept bytes s).csr.kissidx = s.csr.kissidx := by simp only [pollAccept]
@[simp] theorem pollAccept_env (bytes : List Byte) (s : State) :
    (pollAccept bytes s).env = s.env := by simp only [pollAccept]
@[simp] theorem pollAccept_host (bytes : List Byte) (s : State) :
    (pollAccept bytes s).host = s.host := by simp only [pollAccept]
@[simp] theorem pollAccept_sched (bytes : List Byte) (s : State) :
    (pollAccept bytes s).sched = s.sched := by simp only [pollAccept]
@[simp] theorem pollAccept_mem (bytes : List Byte) (s : State) :
    (pollAccept bytes s).mem =
      memWriteBytes s.mem Config.rxBase (bytes.take Config.pktLen) := by
  simp only [pollAccept]
@[simp] theorem pollAccept_freeCount (bytes : List Byte) (s : State) :
    (pollAccept bytes s).freeCount = s.freeCount := by simp only [pollAccept]

/-! ### Recording a kiss code (42 R165) -/

@[simp] theorem recordKiss_x (table : List Half) (s : State) :
    (recordKiss table s).x = s.x := by simp only [recordKiss]
@[simp] theorem recordKiss_csr_state (table : List Half) (s : State) :
    (recordKiss table s).csr.state = s.csr.state := by simp only [recordKiss]
@[simp] theorem recordKiss_csr_err (table : List Half) (s : State) :
    (recordKiss table s).csr.err = s.csr.err := by simp only [recordKiss]
@[simp] theorem recordKiss_csr_rxvalid (table : List Half) (s : State) :
    (recordKiss table s).csr.rxvalid = s.csr.rxvalid := by simp only [recordKiss]
@[simp] theorem recordKiss_csr_synced (table : List Half) (s : State) :
    (recordKiss table s).csr.synced = s.csr.synced := by simp only [recordKiss]
@[simp] theorem recordKiss_csr_timeout (table : List Half) (s : State) :
    (recordKiss table s).csr.timeout = s.csr.timeout := by simp only [recordKiss]
@[simp] theorem recordKiss_csr_pollcnt (table : List Half) (s : State) :
    (recordKiss table s).csr.pollcnt = s.csr.pollcnt := by simp only [recordKiss]
@[simp] theorem recordKiss_csr_msstart (table : List Half) (s : State) :
    (recordKiss table s).csr.msstart = s.csr.msstart := by simp only [recordKiss]
@[simp] theorem recordKiss_csr_msrecv (table : List Half) (s : State) :
    (recordKiss table s).csr.msrecv = s.csr.msrecv := by simp only [recordKiss]
@[simp] theorem recordKiss_csr_mspoll (table : List Half) (s : State) :
    (recordKiss table s).csr.mspoll = s.csr.mspoll := by simp only [recordKiss]
@[simp] theorem recordKiss_csr_mscomp (table : List Half) (s : State) :
    (recordKiss table s).csr.mscomp = s.csr.mscomp := by simp only [recordKiss]
@[simp] theorem recordKiss_csr_mssync (table : List Half) (s : State) :
    (recordKiss table s).csr.mssync = s.csr.mssync := by simp only [recordKiss]
@[simp] theorem recordKiss_csr_sleepms (table : List Half) (s : State) :
    (recordKiss table s).csr.sleepms = s.csr.sleepms := by simp only [recordKiss]
@[simp] theorem recordKiss_csr_kiss (table : List Half) (s : State) :
    (recordKiss table s).csr.kiss = replyRefId s := by simp only [recordKiss]
@[simp] theorem recordKiss_csr_kissidx (table : List Half) (s : State) :
    (recordKiss table s).csr.kissidx =
      kissLookupIn table (replyRefId s) := by
  simp only [recordKiss]
@[simp] theorem recordKiss_env (table : List Half) (s : State) :
    (recordKiss table s).env = s.env := by simp only [recordKiss]
@[simp] theorem recordKiss_host (table : List Half) (s : State) :
    (recordKiss table s).host = s.host := by simp only [recordKiss]
@[simp] theorem recordKiss_sched (table : List Half) (s : State) :
    (recordKiss table s).sched = s.sched := by simp only [recordKiss]
@[simp] theorem recordKiss_mem (table : List Half) (s : State) :
    (recordKiss table s).mem = s.mem := by simp only [recordKiss]
@[simp] theorem recordKiss_freeCount (table : List Half) (s : State) :
    (recordKiss table s).freeCount = s.freeCount := by simp only [recordKiss]

/-! ### Loading a valid reply (42 R160) -/

@[simp] theorem loadReply_x_opa (s : State) :
    (loadReply s).x.opa = s.x.opa := by simp only [loadReply]
@[simp] theorem loadReply_x_ops (s : State) :
    (loadReply s).x.ops = s.x.ops := by simp only [loadReply]
@[simp] theorem loadReply_x_opf (s : State) :
    (loadReply s).x.opf = s.x.opf := by simp only [loadReply]
@[simp] theorem loadReply_x_res (s : State) :
    (loadReply s).x.res = s.x.res := by simp only [loadReply]
@[simp] theorem loadReply_x_t1 (s : State) : (loadReply s).x.t1 = s.x.t1 := by simp only [loadReply]
@[simp] theorem loadReply_x_t2 (s : State) :
    (loadReply s).x.t2 = replyRec s := by simp only [loadReply]
@[simp] theorem loadReply_x_t3 (s : State) :
    (loadReply s).x.t3 = replyXmt s := by simp only [loadReply]
@[simp] theorem loadReply_x_t1r (s : State) :
    (loadReply s).x.t1r = s.x.t1r := by simp only [loadReply]
@[simp] theorem loadReply_x_t2r (s : State) :
    (loadReply s).x.t2r = s.x.t2r := by simp only [loadReply]
@[simp] theorem loadReply_x_t3r (s : State) :
    (loadReply s).x.t3r = s.x.t3r := by simp only [loadReply]
@[simp] theorem loadReply_x_t4r (s : State) :
    (loadReply s).x.t4r = s.x.t4r := by simp only [loadReply]
@[simp] theorem loadReply_x_delay (s : State) :
    (loadReply s).x.delay = s.x.delay := by simp only [loadReply]
@[simp] theorem loadReply_x_offset (s : State) :
    (loadReply s).x.offset = s.x.offset := by simp only [loadReply]
@[simp] theorem loadReply_x_corr (s : State) :
    (loadReply s).x.corr = s.x.corr := by simp only [loadReply]
@[simp] theorem loadReply_x_time (s : State) :
    (loadReply s).x.time = s.x.time := by simp only [loadReply]
@[simp] theorem loadReply_csr_state (s : State) :
    (loadReply s).csr.state = St.validated := by simp only [loadReply]
@[simp] theorem loadReply_csr_err (s : State) :
    (loadReply s).csr.err = s.csr.err := by simp only [loadReply]
@[simp] theorem loadReply_csr_rxvalid (s : State) :
    (loadReply s).csr.rxvalid = s.csr.rxvalid := by simp only [loadReply]
@[simp] theorem loadReply_csr_synced (s : State) :
    (loadReply s).csr.synced = s.csr.synced := by simp only [loadReply]
@[simp] theorem loadReply_csr_timeout (s : State) :
    (loadReply s).csr.timeout = s.csr.timeout := by simp only [loadReply]
@[simp] theorem loadReply_csr_pollcnt (s : State) :
    (loadReply s).csr.pollcnt = s.csr.pollcnt := by simp only [loadReply]
@[simp] theorem loadReply_csr_msstart (s : State) :
    (loadReply s).csr.msstart = s.csr.msstart := by simp only [loadReply]
@[simp] theorem loadReply_csr_msrecv (s : State) :
    (loadReply s).csr.msrecv = s.csr.msrecv := by simp only [loadReply]
@[simp] theorem loadReply_csr_mspoll (s : State) :
    (loadReply s).csr.mspoll = s.csr.mspoll := by simp only [loadReply]
@[simp] theorem loadReply_csr_mscomp (s : State) :
    (loadReply s).csr.mscomp = s.csr.mscomp := by simp only [loadReply]
@[simp] theorem loadReply_csr_mssync (s : State) :
    (loadReply s).csr.mssync = s.csr.mssync := by simp only [loadReply]
@[simp] theorem loadReply_csr_sleepms (s : State) :
    (loadReply s).csr.sleepms = s.csr.sleepms := by simp only [loadReply]
@[simp] theorem loadReply_csr_kiss (s : State) :
    (loadReply s).csr.kiss = s.csr.kiss := by simp only [loadReply]
@[simp] theorem loadReply_csr_kissidx (s : State) :
    (loadReply s).csr.kissidx = s.csr.kissidx := by simp only [loadReply]
@[simp] theorem loadReply_env (s : State) : (loadReply s).env = s.env := by simp only [loadReply]
@[simp] theorem loadReply_host (s : State) : (loadReply s).host = s.host := by simp only [loadReply]
@[simp] theorem loadReply_sched (s : State) :
    (loadReply s).sched = s.sched := by simp only [loadReply]
@[simp] theorem loadReply_mem (s : State) : (loadReply s).mem = s.mem := by simp only [loadReply]
@[simp] theorem loadReply_freeCount (s : State) :
    (loadReply s).freeCount = s.freeCount := by simp only [loadReply]

/-! ### COMPUTE's effect (43 R180) -/

@[simp] theorem computeEffect_x_opa (s : State) :
    (computeEffect s).x.opa = s.x.opa := by simp only [computeEffect]
@[simp] theorem computeEffect_x_ops (s : State) :
    (computeEffect s).x.ops = s.x.ops := by simp only [computeEffect]
@[simp] theorem computeEffect_x_opf (s : State) :
    (computeEffect s).x.opf = s.x.opf := by simp only [computeEffect]
@[simp] theorem computeEffect_x_res (s : State) :
    (computeEffect s).x.res = s.x.res := by simp only [computeEffect]
@[simp] theorem computeEffect_x_t1 (s : State) :
    (computeEffect s).x.t1 = s.x.t1 := by simp only [computeEffect]
@[simp] theorem computeEffect_x_t2 (s : State) :
    (computeEffect s).x.t2 = s.x.t2 := by simp only [computeEffect]
@[simp] theorem computeEffect_x_t3 (s : State) :
    (computeEffect s).x.t3 = s.x.t3 := by simp only [computeEffect]
@[simp] theorem computeEffect_x_t1r (s : State) :
    (computeEffect s).x.t1r = tsToReal s.x.t1 := by simp only [computeEffect]
@[simp] theorem computeEffect_x_t2r (s : State) :
    (computeEffect s).x.t2r = tsToReal s.x.t2 := by simp only [computeEffect]
@[simp] theorem computeEffect_x_t3r (s : State) :
    (computeEffect s).x.t3r = tsToReal s.x.t3 := by simp only [computeEffect]
@[simp] theorem computeEffect_x_t4r (s : State) :
    (computeEffect s).x.t4r = clientReceive s := by simp only [computeEffect]
@[simp] theorem computeEffect_x_delay (s : State) :
    (computeEffect s).x.delay =
      roundTripDelay (tsToReal s.x.t1) (tsToReal s.x.t2) (tsToReal s.x.t3) (clientReceive s) := by
  simp only [computeEffect]
@[simp] theorem computeEffect_x_offset (s : State) :
    (computeEffect s).x.offset =
      clockOffset (tsToReal s.x.t1) (tsToReal s.x.t2) (tsToReal s.x.t3) (clientReceive s) := by
  simp only [computeEffect]
@[simp] theorem computeEffect_x_corr (s : State) :
    (computeEffect s).x.corr = s.x.corr := by simp only [computeEffect]
@[simp] theorem computeEffect_x_time (s : State) :
    (computeEffect s).x.time = s.x.time := by simp only [computeEffect]
@[simp] theorem computeEffect_csr_state (s : State) :
    (computeEffect s).csr.state = St.offsetComputed := by simp only [computeEffect]
@[simp] theorem computeEffect_csr_err (s : State) :
    (computeEffect s).csr.err = s.csr.err := by simp only [computeEffect]
@[simp] theorem computeEffect_csr_rxvalid (s : State) :
    (computeEffect s).csr.rxvalid = s.csr.rxvalid := by simp only [computeEffect]
@[simp] theorem computeEffect_csr_synced (s : State) :
    (computeEffect s).csr.synced = s.csr.synced := by simp only [computeEffect]
@[simp] theorem computeEffect_csr_timeout (s : State) :
    (computeEffect s).csr.timeout = s.csr.timeout := by simp only [computeEffect]
@[simp] theorem computeEffect_csr_pollcnt (s : State) :
    (computeEffect s).csr.pollcnt = s.csr.pollcnt := by simp only [computeEffect]
@[simp] theorem computeEffect_csr_msstart (s : State) :
    (computeEffect s).csr.msstart = s.csr.msstart := by simp only [computeEffect]
@[simp] theorem computeEffect_csr_msrecv (s : State) :
    (computeEffect s).csr.msrecv = s.csr.msrecv := by simp only [computeEffect]
@[simp] theorem computeEffect_csr_mspoll (s : State) :
    (computeEffect s).csr.mspoll = s.csr.mspoll := by simp only [computeEffect]
@[simp] theorem computeEffect_csr_mscomp (s : State) :
    (computeEffect s).csr.mscomp = s.env.ms := by simp only [computeEffect]
@[simp] theorem computeEffect_csr_mssync (s : State) :
    (computeEffect s).csr.mssync = s.csr.mssync := by simp only [computeEffect]
@[simp] theorem computeEffect_csr_sleepms (s : State) :
    (computeEffect s).csr.sleepms = s.csr.sleepms := by simp only [computeEffect]
@[simp] theorem computeEffect_csr_kiss (s : State) :
    (computeEffect s).csr.kiss = s.csr.kiss := by simp only [computeEffect]
@[simp] theorem computeEffect_csr_kissidx (s : State) :
    (computeEffect s).csr.kissidx = s.csr.kissidx := by simp only [computeEffect]
@[simp] theorem computeEffect_env (s : State) :
    (computeEffect s).env = s.env := by simp only [computeEffect]
@[simp] theorem computeEffect_host (s : State) :
    (computeEffect s).host = s.host := by simp only [computeEffect]
@[simp] theorem computeEffect_sched (s : State) :
    (computeEffect s).sched = s.sched := by simp only [computeEffect]
@[simp] theorem computeEffect_mem (s : State) :
    (computeEffect s).mem = s.mem := by simp only [computeEffect]
@[simp] theorem computeEffect_freeCount (s : State) :
    (computeEffect s).freeCount = s.freeCount := by simp only [computeEffect]

/-! ### The clock's tick (10 R50) -/

@[simp] theorem clockTick_x (s : State) : (clockTick s).x = s.x := by simp only [clockTick]
@[simp] theorem clockTick_csr (s : State) : (clockTick s).csr = s.csr := by simp only [clockTick]
@[simp] theorem clockTick_env_ms (s : State) :
    (clockTick s).env.ms = s.env.ms + 1 := by simp only [clockTick]
@[simp] theorem clockTick_env_netUp (s : State) :
    (clockTick s).env.netUp = s.env.netUp := by simp only [clockTick]
@[simp] theorem clockTick_env_sendStatus (s : State) :
    (clockTick s).env.sendStatus = s.env.sendStatus := by simp only [clockTick]
@[simp] theorem clockTick_env_rx (s : State) :
    (clockTick s).env.rx = s.env.rx := by simp only [clockTick]
@[simp] theorem clockTick_env_sent (s : State) :
    (clockTick s).env.sent = s.env.sent := by simp only [clockTick]
@[simp] theorem clockTick_host (s : State) : (clockTick s).host = s.host := by simp only [clockTick]
@[simp] theorem clockTick_sched (s : State) :
    (clockTick s).sched = s.sched := by simp only [clockTick]
@[simp] theorem clockTick_mem (s : State) : (clockTick s).mem = s.mem := by simp only [clockTick]
@[simp] theorem clockTick_freeCount (s : State) :
    (clockTick s).freeCount = s.freeCount := by simp only [clockTick]

/-! ### The transport's answers (10 R51 to R53) -/

@[simp] theorem transportAnswer_x (n : Bool) (st : SendStatus) (rx : Option (List Byte)) (s : State) :
    (transportAnswer n st rx s).x =
      s.x := by
  simp only [transportAnswer]
@[simp] theorem transportAnswer_csr (n : Bool) (st : SendStatus) (rx : Option (List Byte)) (s : State) :
    (transportAnswer n st rx s).csr =
      s.csr := by
  simp only [transportAnswer]
@[simp] theorem transportAnswer_env_ms (n : Bool) (st : SendStatus) (rx : Option (List Byte)) (s : State) :
    (transportAnswer n st rx s).env.ms =
      s.env.ms := by
  simp only [transportAnswer]
@[simp] theorem transportAnswer_env_netUp (n : Bool) (st : SendStatus) (rx : Option (List Byte)) (s : State) :
    (transportAnswer n st rx s).env.netUp =
      n := by
  simp only [transportAnswer]
@[simp] theorem transportAnswer_env_sendStatus (n : Bool) (st : SendStatus) (rx : Option (List Byte)) (s : State) :
    (transportAnswer n st rx s).env.sendStatus =
      st := by
  simp only [transportAnswer]
@[simp] theorem transportAnswer_env_rx (n : Bool) (st : SendStatus) (rx : Option (List Byte)) (s : State) :
    (transportAnswer n st rx s).env.rx =
      rx := by
  simp only [transportAnswer]
@[simp] theorem transportAnswer_env_sent (n : Bool) (st : SendStatus) (rx : Option (List Byte)) (s : State) :
    (transportAnswer n st rx s).env.sent =
      s.env.sent := by
  simp only [transportAnswer]
@[simp] theorem transportAnswer_host (n : Bool) (st : SendStatus) (rx : Option (List Byte)) (s : State) :
    (transportAnswer n st rx s).host =
      s.host := by
  simp only [transportAnswer]
@[simp] theorem transportAnswer_sched (n : Bool) (st : SendStatus) (rx : Option (List Byte)) (s : State) :
    (transportAnswer n st rx s).sched =
      s.sched := by
  simp only [transportAnswer]
@[simp] theorem transportAnswer_mem (n : Bool) (st : SendStatus) (rx : Option (List Byte)) (s : State) :
    (transportAnswer n st rx s).mem =
      s.mem := by
  simp only [transportAnswer]
@[simp] theorem transportAnswer_freeCount (n : Bool) (st : SendStatus) (rx : Option (List Byte)) (s : State) :
    (transportAnswer n st rx s).freeCount =
      s.freeCount := by
  simp only [transportAnswer]

/-! ### The reset (70 R270) -/

@[simp] theorem applyReset_x (s : State) :
    (applyReset s).x = DataRegs.reset := by simp only [applyReset, State.reset]
@[simp] theorem applyReset_csr (s : State) :
    (applyReset s).csr = Csrs.reset := by simp only [applyReset, State.reset]
@[simp] theorem applyReset_env (s : State) :
    (applyReset s).env = s.env := by simp only [applyReset, State.reset]
@[simp] theorem applyReset_host (s : State) :
    (applyReset s).host = s.host := by simp only [applyReset, State.reset]
@[simp] theorem applyReset_sched (s : State) :
    (applyReset s).sched = s.sched := by simp only [applyReset, State.reset]
@[simp] theorem applyReset_mem (s : State) :
    (applyReset s).mem = [] := by simp only [applyReset, State.reset]
@[simp] theorem applyReset_freeCount (s : State) :
    (applyReset s).freeCount = s.freeCount := by simp only [applyReset, State.reset]

/-! ### Counting a drawn free value (log 10) -/

@[simp] theorem countFree_x (p : Word) (n : Nat) (s : State) :
    (countFree p n s).x = s.x := by unfold countFree; split <;> rfl
@[simp] theorem countFree_csr (p : Word) (n : Nat) (s : State) :
    (countFree p n s).csr = s.csr := by unfold countFree; split <;> rfl
@[simp] theorem countFree_env (p : Word) (n : Nat) (s : State) :
    (countFree p n s).env = s.env := by unfold countFree; split <;> rfl
@[simp] theorem countFree_host (p : Word) (n : Nat) (s : State) :
    (countFree p n s).host = s.host := by unfold countFree; split <;> rfl
@[simp] theorem countFree_sched (p : Word) (n : Nat) (s : State) :
    (countFree p n s).sched = s.sched := by unfold countFree; split <;> rfl
@[simp] theorem countFree_mem (p : Word) (n : Nat) (s : State) :
    (countFree p n s).mem = s.mem := by unfold countFree; split <;> rfl
@[simp] theorem countFree_freeCount (p : Word) (n : Nat) (s : State) :
    (countFree p n s).freeCount =
      if f64Finite p then s.freeCount else s.freeCount + n := by
  unfold countFree; split <;> rfl

/-! ### Taking a turn off the schedule (log 1) -/

@[simp] theorem popTurn_x (s : State) : (popTurn s).x = s.x := by unfold popTurn; split <;> rfl
@[simp] theorem popTurn_csr (s : State) :
    (popTurn s).csr = s.csr := by unfold popTurn; split <;> rfl
@[simp] theorem popTurn_env (s : State) :
    (popTurn s).env = s.env := by unfold popTurn; split <;> rfl
@[simp] theorem popTurn_host (s : State) :
    (popTurn s).host = s.host := by unfold popTurn; split <;> rfl
@[simp] theorem popTurn_mem (s : State) :
    (popTurn s).mem = s.mem := by unfold popTurn; split <;> rfl
@[simp] theorem popTurn_freeCount (s : State) :
    (popTurn s).freeCount = s.freeCount := by unfold popTurn; split <;> rfl

/-! ### Functions of the state -/

@[simp] theorem popTurn_busy (s : State) : (popTurn s).busy = s.busy := by simp [State.busy]
@[simp] theorem popTurn_selector (s : State) : (popTurn s).selector = s.selector := by
  simp [State.selector]
@[simp] theorem clearExchange_busy (s : State) : (clearExchange s).busy = s.busy := rfl
@[simp] theorem popTurn_accepting (s : State) : (popTurn s).accepting = s.accepting := by
  simp [State.accepting]
@[simp] theorem clearExchange_accepting (s : State) :
    (clearExchange s).accepting = s.accepting := rfl
@[simp] theorem setRes_accepting (v : Word) (s : State) :
    (setRes v s).accepting = s.accepting := rfl
@[simp] theorem setRes_busy (v : Word) (s : State) : (setRes v s).busy = s.busy := rfl

end Sys2Proof.Machine
end

