-- ==== Sys2Proof/Laws/Ops.lean ====
section
/-! SUPPORT. What each shared operation, each instruction and each turn can do, said once: if it
answers `next t`, then one of the listed cases holds. Later proofs cite these instead of unfolding
the operations. -/

namespace Sys2Proof.Machine

/-! ### BUSY and the commands -/

/-- BUSY is STATE in 1, 2, 3, 4 (10_state.md R27). -/
theorem busy_iff (s : State) :
    s.busy = true ↔ s.csr.state = 1 ∨ s.csr.state = 2 ∨ s.csr.state = 3 ∨ s.csr.state = 4 := by
  simp [State.busy, or_assoc]

/-- An agent that has no step leaves the state as it is. -/
theorem held_next (s t : State) : held s = .next t ↔ t = s := by
  simp [held, eq_comm]

/-- The block accepts commands and writes in Idle, Done and Failed (10_state.md R47). -/
theorem accepting_iff (s : State) :
    s.accepting = true ↔ s.csr.state = 0 ∨ s.csr.state = 5 ∨ s.csr.state = 6 := by
  simp [State.accepting, or_assoc]

/-- While BUSY nothing is accepted. -/
theorem accepting_of_busy (s : State) (h : s.busy = true) : s.accepting = false := by
  rw [busy_iff] at h
  rw [Bool.eq_false_iff, ne_eq, accepting_iff]
  rcases h with h | h | h | h <;> rw [h] <;> decide

/-- While accepting the block is not BUSY. -/
theorem not_busy_of_accepting (s : State) (h : s.accepting = true) : s.busy = false := by
  cases hb : s.busy with
  | false => rfl
  | true => rw [accepting_of_busy s hb] at h; cases h

/-- A command accepted takes its effect. -/
theorem commandEffect_accepting (s e : State) (h : s.accepting = true) :
    commandEffect s e = .next e := by
  simp [commandEffect, h]

/-- A command that is not accepted is held. -/
theorem commandEffect_held (s e : State) (h : s.accepting = false) :
    commandEffect s e = .next s := by
  simp [commandEffect, h, held]

/-- All a command can do: it takes its effect where it is accepted, and is held elsewhere. -/
theorem commandEffect_cases (s e t : State) (h : commandEffect s e = .next t) :
    (s.accepting = false ∧ t = s) ∨ (s.accepting = true ∧ t = e) := by
  cases ha : s.accepting with
  | false => rw [commandEffect_held s e ha] at h; exact .inl ⟨rfl, by cases h; rfl⟩
  | true => rw [commandEffect_accepting s e ha] at h; exact .inr ⟨rfl, by cases h; rfl⟩

/-! ### The engine's instructions -/

/-- All SEND's outcome can be: the bytes handed over, and Awaiting or one of three failures. -/
theorem sendOutcome_cases (s : State) :
    sendOutcome s = setState St.awaiting (handOver s) ∨
      ∃ r ∈ [Reason.addressUnavailable, .overflow, .ioError],
        sendOutcome s = raiseFailed r (handOver s) := by
  unfold sendOutcome
  cases s.env.sendStatus <;> simp

/-- All GETTIME can do after its clear. -/
theorem startExchange_cases (s : State) :
    ((s.x.t1 = 0 ∨ s.csr.timeout = 0) ∧ startExchange s = raiseFailed .invalidArgument s) ∨
      (s.x.t1 ≠ 0 ∧ s.csr.timeout ≠ 0 ∧ startExchange s = buildRequest s) := by
  unfold startExchange
  split
  · next h => exact .inl ⟨h, rfl⟩
  · next h => push Not at h; exact .inr ⟨h.1, h.2, rfl⟩

/-- All an empty poll can do (41_transport.md R136). -/
theorem pollEmpty_cases (s : State) :
    ∃ c : State, c = { s with csr := { s.csr with
        pollcnt := s.csr.pollcnt + 1, mspoll := s.env.ms } } ∧
      ((s.csr.pollcnt + 1 = s.csr.timeout ∧ pollEmpty s = raiseFailed .protocolMismatch c) ∨
        (s.csr.pollcnt + 1 ≠ s.csr.timeout ∧ pollEmpty s = c)) := by
  refine ⟨_, rfl, ?_⟩
  simp only [pollEmpty]
  split
  · next h => exact .inl ⟨h, rfl⟩
  · next h => exact .inr ⟨h, rfl⟩

/-- All a poll can do with the transport's answer (41_transport.md R134). -/
theorem pollOutcome_cases (s : State) :
    (s.env.rx = none ∧ pollOutcome s = pollEmpty s) ∨
    (s.env.rx = some [] ∧ pollOutcome s = pollEmpty (consumeRx s)) ∨
    (∃ bytes, s.env.rx = some bytes ∧ bytes ≠ [] ∧ bytes.length < Config.pktLen ∧
      pollOutcome s = raiseFailed .protocolMismatch (consumeRx s)) ∨
    (∃ bytes, s.env.rx = some bytes ∧ Config.pktLen ≤ bytes.length ∧
      pollOutcome s = pollAccept bytes (consumeRx s)) := by
  unfold pollOutcome
  cases h : s.env.rx with
  | none => simp
  | some bytes =>
    cases bytes with
    | nil => simp
    | cons b bs =>
      simp only [List.length_cons, Nat.add_one_ne_zero, if_false]
      split
      · next lt => exact .inr (.inr (.inl ⟨_, rfl, by simp, by simpa using lt, rfl⟩))
      · next ge => exact .inr (.inr (.inr ⟨_, rfl, by simpa using Nat.le_of_not_lt ge, rfl⟩))

/-- All the six checks can do (42_engine_request_validate.md R160). -/
theorem validateWith_cases (table : List Half) (s : State) :
    (∃ r ∈ [Reason.unsupportedOperation, .unsupportedProtocol, .noDataAvailable,
        .unsupportedProtocolFamily, .badMessage], validateWith table s = raiseFailed r s) ∨
    (replyStratum s = 0 ∧
      validateWith table s = raiseFailed .temporarilyUnavailable (recordKiss table s)) ∨
    (replyOrg s = s.x.t1 ∧ validateWith table s = loadReply s) := by
  unfold validateWith
  split
  · exact .inl ⟨_, by simp, rfl⟩
  split
  · exact .inl ⟨_, by simp, rfl⟩
  split
  · exact .inl ⟨_, by simp, rfl⟩
  split
  · exact .inl ⟨_, by simp, rfl⟩
  split
  · next h => exact .inr (.inl ⟨h, rfl⟩)
  split
  · exact .inl ⟨_, by simp, rfl⟩
  · next h => exact .inr (.inr ⟨by simpa using h, rfl⟩)

/-- A codec instruction that drew no free value, or drew `n`. -/
theorem countFree_cases (p : Word) (n : Nat) (s : State) :
    (f64Finite p = true ∧ countFree p n s = s) ∨
      (f64Finite p = false ∧ countFree p n s = { s with freeCount := s.freeCount + n }) := by
  unfold countFree
  cases f64Finite p <;> simp

/-! ### Every instruction -/

/-- What each instruction's effect is where it takes one. -/
def effectOf (i : Instr) (s : State) : State :=
  match i with
  | .sec32 => setRes ((shortSeconds (opa32 s)).setWidth 64) s
  | .sec64 => setRes ((longSeconds (opa64 s)).setWidth 64) s
  | .frac32 => setRes (shortFractionReal (opa32 s)) s
  | .frac64 => setRes (longFractionReal (opa64 s)) s
  | .pack32 => countFree s.x.opf 1 (setRes (pack32Value s) s)
  | .pack64 => countFree s.x.opf 1 (setRes (pack64Value s) s)
  | .kisslk => setRes ((kissLookup (opa32 s)).setWidth 64) s
  | .gettime => startExchange (clearExchange s)
  | .send => if s.env.netUp then sendOutcome s else raiseFailed .networkUnavailable s
  | .poll => pollOutcome s
  | .validate => validateWith kissTable s
  | .compute => computeEffect s
  | .sync => syncWith (localClockTerm s) s
  | .wake => setState St.done s

/-- Whether an instruction's enabling condition holds (its rule's `require`). -/
def enabled (i : Instr) (s : State) : Bool :=
  match i with
  | .send => s.csr.state == St.requestBuilt
  | .poll => pollEnabled s
  | .validate => s.csr.state == St.awaiting && s.csr.rxvalid
  | .compute => s.csr.state == St.validated
  | .sync => s.csr.state == St.offsetComputed && !s.csr.synced
  | .wake => wakeEnabled s
  | _ => s.accepting

/-- Everything an instruction can do: its effect where it is enabled, nothing where it is not. -/
theorem exec_eq (i : Instr) (s : State) :
    exec i s = .next (if enabled i s then effectOf i s else s) := by
  cases i <;>
    simp only [exec, enabled, effectOf, execSec32, execSec64, execFrac32, execFrac64, execPack32,
      execPack64, execKisslk, execGettime, execSend, execPoll, execValidate, execCompute, execSync,
      execWake, commandEffect, held, Bool.not_eq_true', beq_iff_eq, Bool.and_eq_true]
  all_goals split <;> simp_all

/-! ### Turns -/

/-- Everything the bus's turn can do (10_state.md R47, 30_encoding.md R80). -/
theorem busTurn_cases (s t : State) (h : busTurn s = .next t) :
    (s.host.queue = [] ∧ t = s) ∨
    (∃ w rest a, s.host.queue = w :: rest ∧ decodeBusWord w = .ok (.read a) ∧
      t = { s with host := { queue := rest, rdata := some (hostRead s a) } }) ∨
    (∃ w rest a d, s.host.queue = w :: rest ∧ decodeBusWord w = .ok (.write a d) ∧
      s.accepting = false ∧ t = s) ∨
    (∃ w rest a d, s.host.queue = w :: rest ∧ decodeBusWord w = .ok (.write a d) ∧
      s.accepting = true ∧
      acceptWrite a d { s with host := { s.host with queue := rest } } = .next t) := by
  unfold busTurn at h
  split at h
  · next hq => exact .inl ⟨hq, by cases h; rfl⟩
  · next w rest hq =>
    split at h
    · next a hd => exact .inr (.inl ⟨w, rest, a, hq, hd, by cases h; rfl⟩)
    · next a d hd =>
      cases hb : s.accepting with
      | false =>
        rw [hb, if_neg (by simp)] at h
        exact .inr (.inr (.inl ⟨w, rest, a, d, hq, hd, rfl, (held_next s t).1 h⟩))
      | true =>
        rw [hb, if_pos rfl] at h
        exact .inr (.inr (.inr ⟨w, rest, a, d, hq, hd, rfl, h⟩))
    · cases h

/-- Everything an accepted write can do (10_state.md R46, 30_encoding.md R85, R87). -/
theorem acceptWrite_cases (a : Addr) (d : Word) (s t : State) (h : acceptWrite a d s = .next t) :
    (a = cmdAddr ∧ ∃ i, decodeCommand (commandByte d) = .ok i ∧ exec i s = .next t) ∨
    (a = cmdAddr ∧ (∃ r, decodeCommand (commandByte d) = .error r) ∧ t = s) ∨
    (a ≠ cmdAddr ∧ t = hostStore a d s) := by
  unfold acceptWrite at h
  split at h
  · next ha =>
    split at h
    · next i hi => exact .inl ⟨ha, i, hi, h⟩
    · next r hr => exact .inr (.inl ⟨ha, ⟨r, hr⟩, by cases h; rfl⟩)
  · next ha => exact .inr (.inr ⟨ha, by cases h; rfl⟩)

/-- Everything the engine's turn can do (30_encoding.md R91). -/
theorem engineTurn_cases (s t : State) (h : engineTurn s = .next t) :
    (∃ i, decodeSelector s.selector = .ok i ∧ exec i s = .next t) ∨
    ((∃ r, decodeSelector s.selector = .error r) ∧ t = s) := by
  unfold engineTurn at h
  split at h
  · next i hi => exact .inl ⟨i, hi, h⟩
  · next r hr => exact .inr ⟨⟨r, hr⟩, (held_next s t).1 h⟩

/-- Everything a step can do: the turn that came up, taken from the state without it. -/
theorem step_cases (s t : State) (h : step s = .next t) :
    (∃ w, upcomingTurn s = .issue w ∧ (∃ tr, decodeBusWord w = .ok tr) ∧
      t = { popTurn s with host :=
        { (popTurn s).host with queue := (popTurn s).host.queue ++ [w] } }) ∨
    (upcomingTurn s = .bus ∧ busTurn (popTurn s) = .next t) ∨
    (upcomingTurn s = .engine ∧ engineTurn (popTurn s) = .next t) ∨
    (∃ n st rx, upcomingTurn s = .answer n st rx ∧ t = transportAnswer n st rx (popTurn s)) ∨
    (upcomingTurn s = .tick ∧ t = clockTick (popTurn s)) ∨
    (upcomingTurn s = .reset ∧ t = applyReset (popTurn s)) := by
  unfold step takeTurn at h
  cases hu : upcomingTurn s with
  | issue w =>
    simp only [hu, issueTurn] at h
    split at h
    · next tr hd => exact .inl ⟨w, rfl, ⟨tr, hd⟩, by cases h; rfl⟩
    · cases h
  | bus => simp only [hu] at h; exact .inr (.inl ⟨rfl, h⟩)
  | engine => simp only [hu] at h; exact .inr (.inr (.inl ⟨rfl, h⟩))
  | answer n st rx =>
    simp only [hu] at h
    exact .inr (.inr (.inr (.inl ⟨n, st, rx, rfl, by cases h; rfl⟩)))
  | tick => simp only [hu] at h; exact .inr (.inr (.inr (.inr (.inl ⟨rfl, by cases h; rfl⟩))))
  | reset => simp only [hu] at h; exact .inr (.inr (.inr (.inr (.inr ⟨rfl, by cases h; rfl⟩))))

end Sys2Proof.Machine
end

