-- ==== Sys2Proof/Laws/PerInstr.lean ====
section
/-! SUPPORT. Facts made for every instruction, one lemma per constructor. The family RowEncoding: the
code an instruction encodes to is its row's match value of spec/opcode_table.json, it decodes back to
the instruction, and it is in the space of the row's format. -/

namespace Sys2Proof.Laws.RowEncoding

/-- The number of bits and the match value of an instruction's row in spec/opcode_table.json. -/
def row : Instr → Nat × Nat
  | .sec32 => (8, 0x00)
  | .sec64 => (8, 0x01)
  | .frac32 => (8, 0x02)
  | .frac64 => (8, 0x03)
  | .pack32 => (8, 0x04)
  | .pack64 => (8, 0x05)
  | .kisslk => (8, 0x08)
  | .gettime => (8, 0x10)
  | .send => (5, 0x01)
  | .poll => (5, 0x02)
  | .validate => (5, 0x0A)
  | .compute => (5, 0x03)
  | .sync => (5, 0x04)
  | .wake => (5, 0x14)

/-- The code as a number of the row's width. -/
def codeNumber : Code → Nat × Nat
  | .command c => (8, c.toNat)
  | .selector sel => (5, sel.toNat)

/-- Encoding gives the row's word, and both decoders read the instruction from it. -/
def Statement (i : Instr) : Prop :=
  codeNumber (encode i) = row i ∧ decode (encode i) = .ok i ∧
    decodeTableWord (row i).1 (row i).2 = some i ∧
    (i.isEngineStep = true ↔ (row i).1 = 5)

theorem sec32 : Statement .sec32 := ⟨rfl, rfl, rfl, by decide⟩
theorem sec64 : Statement .sec64 := ⟨rfl, rfl, rfl, by decide⟩
theorem frac32 : Statement .frac32 := ⟨rfl, rfl, rfl, by decide⟩
theorem frac64 : Statement .frac64 := ⟨rfl, rfl, rfl, by decide⟩
theorem pack32 : Statement .pack32 := ⟨rfl, rfl, rfl, by decide⟩
theorem pack64 : Statement .pack64 := ⟨rfl, rfl, rfl, by decide⟩
theorem kisslk : Statement .kisslk := ⟨rfl, rfl, rfl, by decide⟩
theorem gettime : Statement .gettime := ⟨rfl, rfl, rfl, by decide⟩
theorem send : Statement .send := ⟨rfl, rfl, rfl, by decide⟩
theorem poll : Statement .poll := ⟨rfl, rfl, rfl, by decide⟩
theorem validate : Statement .validate := ⟨rfl, rfl, rfl, by decide⟩
theorem compute : Statement .compute := ⟨rfl, rfl, rfl, by decide⟩
theorem sync : Statement .sync := ⟨rfl, rfl, rfl, by decide⟩
theorem wake : Statement .wake := ⟨rfl, rfl, rfl, by decide⟩

end Sys2Proof.Laws.RowEncoding
end

