-- ==== Sys2Proof/Tests/Slice0.lean ====
section
/-! SUPPORT. Tests of the model against spec/: ill-formed terms that WellFormed refuses, words written
out from the encoding tables, one-step vectors of 95_test_vectors.md, and for every obligation that
has hypotheses a state that meets them (`witness_<obligation>`). -/

namespace Sys2Proof.Tests

open Sys2Proof.Machine Sys2Proof.Safety

/-! ### Helpers -/

/-- The reset state with T1 = 1000 s and `csr.STATE` = `st`. -/
def base (st : BitVec 3) : State :=
  { State.reset with
    x := { DataRegs.reset with t1 := 0x000003E800000000#64 }
    csr := { Csrs.reset with state := st } }

/-- `s` with the turn `t` next and the bus words `q` issued. -/
def scheduled (t : Turn) (q : List BusWord) (s : State) : State :=
  { s with host := { queue := q, rdata := none }, sched := { turns := [t], turnCount := 0 } }

/-- The state an outcome answers; the state `s` where it answers none. -/
def nextOr (s : State) : Result → State
  | .next t => t
  | .fault _ => s
  | .refused _ => s

/-- The state after instruction `i`. -/
def after (i : Instr) (s : State) : State := nextOr s (exec i s)

/-- The state after one step. -/
def stepped (s : State) : State := nextOr s (step s)

/-- x[RES] after a codec command on given operands, in Idle. -/
def resAfter (i : Instr) (opa ops opf : Word) : Word :=
  (after i { base 0 with x := { DataRegs.reset with opa := opa, ops := ops, opf := opf } }).x.res

/-- TXBUF's listed bytes for T1 = 1000 s (V-G1). -/
def request : Memory := [(128, 0x23#8), (170, 0x03#8), (171, 0xE8#8)]

/-- A reply in RXBUF with the given header byte, stratum, ref_id "DENY" and originate seconds
1000 + `d`; rec = 1000.5 s, xmt = 1000.6 s (program P2). -/
def reply (header stratum d : Byte) : Memory :=
  request ++ memCons 192 header (memCons 193 stratum
    ([(204, 0x44#8), (205, 0x45#8), (206, 0x4E#8), (207, 0x59#8), (218, 0x03#8), (219, 0xE8#8 + d),
      (226, 0x03#8), (227, 0xE8#8), (228, 0x80#8), (234, 0x03#8), (235, 0xE8#8), (236, 0x99#8),
      (237, 0x99#8), (238, 0x99#8), (239, 0x99#8)]))

/-- Awaiting with a reply received. -/
def replied (header stratum d : Byte) : State :=
  { base 2 with
    mem := reply header stratum d, csr := { Csrs.reset with state := 2, rxvalid := true } }

/-- Awaiting, polling: POLLCNT `n` of TIMEOUT 3, last empty poll at `last`, now `now`. -/
def polling (n last now : Half) (rx : Option (List Byte)) : State :=
  { base 2 with
    mem := request
    csr := { Csrs.reset with state := 2, timeout := 3, pollcnt := n, mspoll := last }
    env := { State.reset.env with ms := now, rx := rx } }

/-- RequestBuilt, with the transport's answers. -/
def built (up : Bool) (status : SendStatus) : State :=
  { base 1 with mem := request, env := { State.reset.env with netUp := up, sendStatus := status } }

/-- Validated, with the operands of V-E1. -/
def validated : State :=
  { base 3 with
    mem := reply 0x24 2 0
    x := { DataRegs.reset with
      t1 := 0x000003E800000000, t2 := 0x000003E880000000, t3 := 0x000003E899999999 }
    csr := { Csrs.reset with state := 3, rxvalid := true, msstart := 5000, msrecv := 6000 } }

/-- The data registers that COMPUTE leaves in V-E1 (program P2). -/
def measured : DataRegs :=
  { DataRegs.reset with
    t1 := 0x000003E800000000, t2 := 0x000003E880000000, t3 := 0x000003E899999999
    t1r := 0x408F400000000000, t2r := 0x408F440000000000, t3r := 0x408F44CCCCCCC800
    t4r := 0x408F480000000000, delay := 0x3FECCCCCCCE00000, offset := 0x3FA9999999000000 }

/-- OffsetComputed, with the operands of V-Y1: OFFSET and T4R of V-E1, MSCOMP 6000, now 6003. -/
def computed : State :=
  { base 4 with
    mem := reply 0x24 2 0
    x := measured
    csr := { Csrs.reset with
      state := 4, rxvalid := true, msstart := 5000, msrecv := 6000, mscomp := 6000 }
    env := { State.reset.env with ms := 6003 } }

/-- OffsetComputed and sleeping, with SYNC's results of V-Y1, now `now`. -/
def sleeping (now : Half) : State :=
  { computed with
    x := { measured with corr := 0x408F506C8B43931B, time := 1002 }
    csr := { computed.csr with synced := true, mssync := 6003, sleepms := 947 }
    env := { State.reset.env with ms := now } }

/-- Failed with TemporarilyUnavailable (V-V12). -/
def failed : State :=
  { base 6 with
    mem := reply 0x24 0 0
    csr := { Csrs.reset with
      state := 6, err := 11, rxvalid := true, kiss := 0x44454E59, kissidx := 5 } }

/-- `csr.STATE` = `st` with OPF = `f`. -/
def withOpf (st : BitVec 3) (f : Word) : State :=
  { base st with x := { DataRegs.reset with opf := f } }

/-- `csr.STATE` = `st` with GETTIME's two arguments. -/
def withArguments (st : BitVec 3) (t1 : Word) (timeout : Half) : State :=
  { base st with
    x := { DataRegs.reset with t1 := t1 }, csr := { Csrs.reset with state := st, timeout := timeout } }

/-- 48 bytes of a datagram, then `extra` more. -/
def datagram (extra : Nat) : List Byte := 0x24#8 :: List.replicate (47 + extra) 0x11#8

/-! ### WellFormed refuses ill-formed terms -/

theorem test_wellFormed_refuses_kind : BusWord.wellFormed 0x021F0000000000000010#80 = false := by decide
theorem test_wellFormed_refuses_read_data :
    BusWord.wellFormed 0x00030000000000000001#80 = false := by decide
theorem test_wellFormed_accepts_words :
    BusWord.wellFormed 0x00030000000000000000#80 = true ∧
      BusWord.wellFormed 0x010100000000000003E8#80 = true := by decide
theorem test_wellFormed_refuses_buffer_bytes :
    (Loc.txbuf 48).wellFormed = false ∧ (Loc.rxbuf 48).wellFormed = false ∧
      (Loc.txbuf 47).wellFormed = true := by decide
theorem test_wellFormed_refuses_engine_line :
    (AsmLine.command .send).wellFormed = false ∧ (AsmLine.command .gettime).wellFormed = true := by
  decide
theorem test_wellFormed_refuses_empty_datagram :
    (TraceLine.poll (some [])).wellFormed = false ∧
      (TraceLine.poll (some [0#8])).wellFormed = true := by decide

/-! ### Decoding: words written out from 30_encoding.md R80, R85, R91, R104 -/

theorem test_decode_codec :
    decodeCommand 0b00000000#8 = .ok .sec32 ∧ decodeCommand 0b00000001#8 = .ok .sec64 ∧
      decodeCommand 0b00000010#8 = .ok .frac32 ∧ decodeCommand 0b00000011#8 = .ok .frac64 ∧
      decodeCommand 0b00000100#8 = .ok .pack32 ∧ decodeCommand 0b00000101#8 = .ok .pack64 := by
  decide
theorem test_decode_kisslk_gettime :
    decodeCommand 0b00001000#8 = .ok .kisslk ∧ decodeCommand 0b00010000#8 = .ok .gettime := by
  decide
theorem test_decode_reserved :
    decodeCommand 0x06#8 = .error (.reservedCommand 0x06) ∧
      decodeCommand 0x20#8 = .error (.reservedCommand 0x20) ∧
      decodeSelector 0b11000#5 = .error (.noEngineStep 0b11000) := by decide
theorem test_decode_engine :
    decodeSelector 0b11001#5 = .ok .send ∧ decodeSelector 0b10010#5 = .ok .poll ∧
      decodeSelector 0b11010#5 = .ok .validate ∧ decodeSelector 0b01011#5 = .ok .compute ∧
      decodeSelector 0b01100#5 = .ok .sync ∧ decodeSelector 0b11100#5 = .ok .wake := by decide
theorem test_decode_bus_words :
    decodeBusWord 0x00030000000000000000#80 = .ok (.read 0x03) ∧
      decodeBusWord 0x010100000000000003E8#80 = .ok (.write 0x01 0x3E8) ∧
      decodeBusWord 0x02000000000000000000#80 = .error (.notATransaction 0x02) := by decide
theorem test_decode_table_words :
    decodeTableWord 8 0x10 = some .gettime ∧ decodeTableWord 5 0x14 = some .wake ∧
      decodeTableWord 8 0x0A = some .validate ∧
      decodeTableWord 80 0x011FFFFFFFFFFFFFFF05 = some .pack64 := by decide
/-- The words of program P1's first lines. -/
theorem test_assemble :
    assemble (.wr .ops (.num 1000)) = [0x010100000000000003E8#80] ∧
      assemble (.rd .res) = [0x00030000000000000000#80] ∧
      assemble (.command .pack64) = [0x011F0000000000000005#80] := by decide
/-- `f:0.6` of program P1. -/
theorem test_assemble_decimal :
    assemble (.wr .opf (.real false 6 1)) = [0x01023FE3333333333333#80] := by decide +kernel
/-- `f:-0.0`: the sign is the model's choice (log 28). -/
theorem test_assemble_negative_zero :
    assemble (.wr .opf (.real true 0 1)) = [0x01028000000000000000#80] := by decide +kernel

/-! ### One-step vectors of 95_test_vectors.md -/

/-- V-C40, V-C44. -/
theorem test_sec32 : resAfter .sec32 0x1234C000 0 0 = 0x1234 ∧
    resAfter .sec32 0xDEADBEEF00018000 0 0 = 1 := by decide
/-- V-C30, V-C31. -/
theorem test_sec64 : resAfter .sec64 0x000003E880000000 0 0 = 0x3E8 ∧
    resAfter .sec64 0xFFFFFFFFFFFFFFFF 0 0 = 0xFFFFFFFF := by decide
/-- V-C41, V-C44. -/
theorem test_frac32 : resAfter .frac32 0xFFFFFFFF 0 0 = 0x3FEFFFE000000000 ∧
    resAfter .frac32 0xDEADBEEF00018000 0 0 = 0x3FE0000000000000 := by decide +kernel
/-- V-C31, V-C34. -/
theorem test_frac64 : resAfter .frac64 0xFFFFFFFFFFFFFFFF 0 0 = 0x3FEFFFFFFFE00000 ∧
    resAfter .frac64 0 0 0 = 0 := by decide +kernel
/-- V-C21, V-C26. -/
theorem test_pack32 : resAfter .pack32 0 0x12345 0x3FE8000000000000 = 0x2345C000 ∧
    resAfter .pack32 0 1 0xBFD0000000000000 = 0x1C000 := by decide +kernel
/-- V-C2, V-C14. -/
theorem test_pack64 : resAfter .pack64 0 0x3E8 0x3FE3333333333333 = 0x000003E899999999 ∧
    resAfter .pack64 0 7 0xBFFC000000000000 = 0x0000000740000000 := by decide +kernel
/-- V-K2, V-K9, V-K11. -/
theorem test_kisslk : resAfter .kisslk 0x52415445 0 0 = 11 ∧
    resAfter .kisslk 0x52415400 0 0 = 14 ∧ resAfter .kisslk 0xFFFFFFFF52415445 0 0 = 11 := by decide
/-- V-G1. -/
theorem test_gettime_builds :
    (after .gettime (base 5)).mem = request ∧ (after .gettime (base 5)).csr.state = 1 := by decide
/-- V-G5. -/
theorem test_gettime_clears : (after .gettime failed).csr =
    { Csrs.reset with state := 1 } := by decide
/-- V-T1, V-T5. -/
theorem test_send : (after .send (built true .ok)).csr.state = 2 ∧
    (after .send (built true .finFail)).csr.err = 5 := by decide
/-- V-T2. -/
theorem test_send_network_first : (after .send (built false .addrFail)).csr.err = 2 := by decide
/-- V-P7, V-P10. -/
theorem test_poll_empty : (after .poll (polling 2 8 9 none)).csr.err = 6 ∧
    (after .poll (polling 1 0xFFFFFFFF 0 none)).csr.pollcnt = 2 := by decide
/-- V-P2, V-P6. -/
theorem test_poll_held_or_accepts : after .poll (polling 1 5000 5000 none) = polling 1 5000 5000 none ∧
    memRead8 (after .poll (polling 2 8 6000 (some (datagram 4)))).mem 239 = 0x11 ∧
    (after .poll (polling 2 8 6000 (some (datagram 4)))).csr.msrecv = 6000 := by decide
/-- V-V14, V-V7: T2 and T3 are loaded. -/
theorem test_validate_passes : (after .validate (replied 0x64 15 0)).x.t2 = 0x000003E880000000 ∧
    (after .validate (replied 0x24 15 0)).x.t3 = 0x000003E899999999 := by decide
/-- V-V16, V-V17, V-V18, V-V12, V-V11: the first failing check, and the kiss record. -/
theorem test_validate_fails : (after .validate (replied 0xDB 200 1)).csr.err = 7 ∧
    (after .validate (replied 0xDC 0 1)).csr.err = 8 ∧
    (after .validate (replied 0xE4 16 1)).csr.err = 9 ∧
    (after .validate (replied 0x24 0 0)).csr = failed.csr ∧
    (after .validate (replied 0x24 1 1)).csr.err = 12 := by decide
/-- V-E1. -/
theorem test_compute : (after .compute validated).x.delay = 0x3FECCCCCCCE00000 ∧
    (after .compute validated).x.offset = 0x3FA9999999000000 := by decide +kernel
/-- V-Y1. -/
theorem test_sync : (after .sync computed).x.corr = 0x408F506C8B43931B ∧
    (after .sync computed).x.time = 1002 ∧ (after .sync computed).csr.sleepms = 947 := by
  decide +kernel
/-- V-Y1: not at 6949, at 6950. -/
theorem test_wake : (after .wake (sleeping 6949)).csr.state = 4 ∧
    (after .wake (sleeping 6950)).csr.state = 5 := by decide
/-- V-B9, V-B3. -/
theorem test_host_write :
    (stepped (scheduled .bus [0x01130000000100000003#80] (base 0))).csr.timeout = 3 ∧
      (stepped (scheduled .bus [0x01030000000000000005#80] (base 0))).x.res = 0 := by decide
/-- V-B12, V-B5. -/
theorem test_host_read :
    (stepped (scheduled .bus [0x00800000000000000000#80] (built true .ok))).host.rdata = some 0x23 ∧
      (stepped (scheduled .bus [0x00B00000000000000000#80] (built true .ok))).host.rdata = some 0 := by
  decide
/-- V-F2, V-F6, V-F12. -/
theorem test_binary64 : f64Div (u32ToF64 3) F64_1000 = 0x3F689374BC6A7EFA ∧
    f64Div (u32ToF64 0xFFFFFFFF) F64_1000 = 0x4150624DD2E147AE ∧
    f64Floor 0x408F506C8B43931B = 0x408F500000000000 := by decide +kernel

/-! ### States that meet the hypotheses of the obligations -/

theorem witness_StepMapIsExact : ∀ st ∈ [0#3, 5#3, 6#3, 7#3],
    decodeSelector (selectorOf true true st) = .error (.noEngineStep (selectorOf true true st)) := by
  decide

theorem witness_BusWordDecodeEncodeAgree :
    BusWord.wellFormed 0x00FF0000000000000000#80 = true ∧
      BusWord.wellFormed 0x01FFFFFFFFFFFFFFFFFF#80 = true := by decide

theorem witness_StepTakesUpcomingTurn :
    (scheduled .tick [] (base 0)).sched.turns = .tick :: [] ∧ (base 0).sched.turns = [] := by decide

theorem witness_BusStepRunsDecodedCommand : ∀ st ∈ [0#3, 5#3, 6#3],
    let s := scheduled .bus [0x011F0000000000000010#80] (base st)
    s.sched.turns = .bus :: [] ∧ s.host.queue = 0x011F0000000000000010#80 :: [] ∧
      decodeBusWord 0x011F0000000000000010#80 = .ok (.write 0x1F 0x10) ∧
      decodeCommand (BitVec.extractLsb' 0 8 0x10#64) = .ok .gettime ∧
      s.csr.state ∈ [0#3, 5#3, 6#3] := by decide

theorem witness_EngineStepRunsSelectedStep :
    ∀ row ∈ [(built true .ok, Instr.send), (polling 0 0 0 none, .poll), (replied 0x24 2 0, .validate),
      (validated, .compute), (computed, .sync), (sleeping 6950, .wake)],
    (scheduled .engine [] row.1).sched.turns = .engine :: [] ∧
      decodeSelector (selectorOf row.1.csr.synced row.1.csr.rxvalid row.1.csr.state) = .ok row.2 := by
  decide

theorem witness_PlacedInstructionRunsNext :
    decodeTableWord 8 0x05 = some .pack64 ∧ decodeTableWord 5 0x02 = some .poll ∧
      decodeTableWord 5 0x14 = some .wake ∧ decodeTableWord 80 0x011F0000000000000000 = some .sec32 := by
  decide

theorem witness_ReservedCommandIsIgnored : ∀ st ∈ [0#3, 5#3, 6#3],
    let s := scheduled .bus [0x011F0000000000000006#80] (base st)
    s.sched.turns = .bus :: [] ∧ s.host.queue = 0x011F0000000000000006#80 :: [] ∧
      decodeBusWord 0x011F0000000000000006#80 = .ok (.write 0x1F 0x06) ∧
      BitVec.extractLsb' 0 8 0x06#64 ∉
        [0x00#8, 0x01#8, 0x02#8, 0x03#8, 0x04#8, 0x05#8, 0x08#8, 0x10#8] ∧
      s.csr.state ∈ [0#3, 5#3, 6#3] := by decide

/-- A read in every state, the reserved code 7 among them. -/
theorem witness_HostReadIsServedInEveryState : ∀ st ∈ [0#3, 1#3, 2#3, 3#3, 4#3, 5#3, 6#3, 7#3],
    let s := scheduled .bus [0x00100000000000000000#80] (base st)
    s.sched.turns = .bus :: [] ∧ s.host.queue = 0x00100000000000000000#80 :: [] ∧
      decodeBusWord 0x00100000000000000000#80 = .ok (.read 0x10) := by decide

theorem witness_HostReadAddressMap : ∀ a ∈ [0x0F#8, 0x1D#8, 0x1E#8, 0x1F#8, 0x20#8, 0x7F#8, 0xB0#8,
    0xBF#8, 0xF0#8, 0xFF#8],
    a = 0x0F#8 ∨ a = 0x1D#8 ∨ a = 0x1E#8 ∨ a = 0x1F#8 ∨ (0x20#8 ≤ a ∧ a ≤ 0x7F#8) ∨
      (0xB0#8 ≤ a ∧ a ≤ 0xBF#8) ∨ 0xF0#8 ≤ a := by decide

theorem witness_HostWriteAddressMap : ∀ st ∈ [0#3, 5#3, 6#3],
    let s := scheduled .bus [0x01130000000100000003#80] (base st)
    s.sched.turns = .bus :: [] ∧ s.host.queue = 0x01130000000100000003#80 :: [] ∧
      decodeBusWord 0x01130000000100000003#80 = .ok (.write 0x13 0x100000003) ∧
      s.csr.state ∈ [0#3, 5#3, 6#3] ∧ 0x13#8 ≠ 0x1F#8 := by decide

/-- A held write with a READ of STATE issued behind it. -/
theorem witness_HostWriteIsHeldWhileBusy : ∀ st ∈ [1#3, 2#3, 3#3, 4#3],
    let s := scheduled .bus [0x01130000000100000003#80, 0x00100000000000000000#80] (base st)
    s.sched.turns = .bus :: [] ∧
      s.host.queue = 0x01130000000100000003#80 :: 0x00100000000000000000#80 :: [] ∧
      decodeBusWord 0x01130000000100000003#80 = .ok (.write 0x13 0x100000003) ∧
      decodeBusWord 0x00100000000000000000#80 = .ok (.read 0x10) ∧
      s.csr.state ∈ [1#3, 2#3, 3#3, 4#3] := by decide

theorem witness_NotEnabledInstructionChangesNothing :
    Instr.isEngineStep .gettime = false ∧ (base 4).csr.state ∈ [1#3, 2#3, 3#3, 4#3] ∧
      Instr.isEngineStep .send = true ∧ decodeSelector (base 0).selector = .error (.noEngineStep 0) := by
  decide

theorem witness_Sec32TakesShortSeconds :
    ∀ st ∈ [0#3, 5#3, 6#3], (base st).csr.state ∈ [0#3, 5#3, 6#3] := by decide
theorem witness_Sec64TakesLongSeconds :
    ∀ st ∈ [0#3, 5#3, 6#3], (base st).csr.state ∈ [0#3, 5#3, 6#3] := by decide
theorem witness_Frac32IsExact :
    ∀ st ∈ [0#3, 5#3, 6#3], (base st).csr.state ∈ [0#3, 5#3, 6#3] := by decide
theorem witness_Frac64IsExact :
    ∀ st ∈ [0#3, 5#3, 6#3], (base st).csr.state ∈ [0#3, 5#3, 6#3] := by decide
theorem witness_KisslkFindsTheCode :
    ∀ st ∈ [0#3, 5#3, 6#3], (base st).csr.state ∈ [0#3, 5#3, 6#3] := by decide

/-- OPF = +0.0, the largest finite value and its negative. -/
theorem witness_Pack32PacksBothFields :
    ∀ s ∈ [withOpf 0 0, withOpf 5 0x7FEFFFFFFFFFFFFF, withOpf 6 0xFFEFFFFFFFFFFFFF],
    s.csr.state ∈ [0#3, 5#3, 6#3] ∧ f64Finite s.x.opf = true := by decide

/-- OPF = +0.0, the largest finite value and its negative. -/
theorem witness_Pack64PacksBothFields :
    ∀ s ∈ [withOpf 0 0, withOpf 5 0x7FEFFFFFFFFFFFFF, withOpf 6 0xFFEFFFFFFFFFFFFF],
    s.csr.state ∈ [0#3, 5#3, 6#3] ∧ f64Finite s.x.opf = true := by decide

/-- The largest seconds of each width, with +0.0, -0.0 and the largest value below 1. -/
theorem witness_CodecRoundTripLaw : (0xFFFF#64).toNat < 2 ^ 16 ∧ (0xFFFFFFFF#64).toNat < 2 ^ 32 ∧
    (base 6).csr.state ∈ [0#3, 5#3, 6#3] ∧
    (f64Finite 0 = true ∧ 0 ≤ f64Units 0 ∧ f64Units 0 < f64One) ∧
    (f64Finite 0x8000000000000000 = true ∧ 0 ≤ f64Units 0x8000000000000000 ∧
      f64Units 0x8000000000000000 < f64One) ∧
    (f64Finite 0x3FEFFFFFFFFFFFFF = true ∧ 0 ≤ f64Units 0x3FEFFFFFFFFFFFFF ∧
      f64Units 0x3FEFFFFFFFFFFFFF < f64One) := by decide +kernel

/-- V-G6's T1 = 1 and the largest, with the least TIMEOUT and the largest. -/
theorem witness_GettimeBuildsTheRequest :
    ∀ s ∈ [withArguments 0 1 1, withArguments 5 0xFFFFFFFFFFFFFFFF 1, withArguments 6 1 0xFFFFFFFF],
    s.csr.state ∈ [0#3, 5#3, 6#3] ∧ s.mem.wf = true ∧ s.x.t1 ≠ 0 ∧ s.csr.timeout ≠ 0 := by decide

/-- V-G2, V-G3, and both arguments zero. -/
theorem witness_GettimeRejectsZeroArguments :
    ∀ s ∈ [withArguments 0 0 1024, withArguments 5 5 0, withArguments 6 0 0],
    s.csr.state ∈ [0#3, 5#3, 6#3] ∧ s.mem.wf = true ∧ (s.x.t1 = 0 ∨ s.csr.timeout = 0) := by decide

theorem witness_SendOutcomes : (built false .ok).csr.state = 1 ∧ (built false .ok).env.netUp = false ∧
    ∀ status ∈ [SendStatus.ok, .addrFail, .enqFail, .finFail],
      (built true status).csr.state = 1 ∧ (built true status).env.netUp = true ∧
        (built true status).env.sendStatus = status := by decide

/-- The first poll, a later one, the last of the budget; no datagram and one of length zero. -/
theorem witness_PollCountsEmptyPoll :
    ∀ s ∈ [polling 0 0 0 none, polling 1 0xFFFFFFFF 0 (some []), polling 2 8 9 none],
    s.csr.state = 2 ∧ s.csr.rxvalid = false ∧ (s.csr.pollcnt = 0 ∨ s.env.ms ≠ s.csr.mspoll) ∧
      (s.env.rx = none ∨ s.env.rx = some []) := by decide

/-- Lengths 1 and 47. -/
theorem witness_PollRejectsShortDatagram : ∀ bytes ∈ [[0x24#8], List.replicate 47 0#8],
    let s := polling 1 0 1 (some bytes)
    s.csr.state = 2 ∧ s.csr.rxvalid = false ∧ (s.csr.pollcnt = 0 ∨ s.env.ms ≠ s.csr.mspoll) ∧
      s.env.rx = some bytes ∧ 1 ≤ bytes.length ∧ bytes.length ≤ 47 := by decide

/-- Lengths 48 and 52, on the first poll and on the last. -/
theorem witness_PollAcceptsReply :
    ∀ row ∈ [(polling 0 8 8 (some (datagram 0)), 0), (polling 2 8 9 (some (datagram 4)), 4)],
    row.1.mem.wf = true ∧ row.1.csr.state = 2 ∧ row.1.csr.rxvalid = false ∧
      (row.1.csr.pollcnt = 0 ∨ row.1.env.ms ≠ row.1.csr.mspoll) ∧
      row.1.env.rx = some (datagram row.2) ∧ 48 ≤ (datagram row.2).length := by decide

/-- Enabled at once, held (V-P2), and enabled after a tick. -/
theorem witness_PollIsHeldUntilATick :
    engineEnabled (polling 0 0 0 none) = true ∧ engineEnabled (polling 1 5000 5000 none) = false ∧
      engineEnabled (polling 1 5000 5001 none) = true := by decide

/-- Program P5 (the first poll without a tick, then one tick each), a longer spacing, a poll short of
the budget, and the least budget (V-P9). -/
theorem witness_TimeoutAfterExactlyTheBudget :
    ∀ row ∈ [(polling 0 0 7 none, [0, 1, 1]), (polling 0 0 7 none, [5, 2, 3]),
      (polling 0 0 7 none, [0, 1]),
      ({ polling 0 0 7 none with csr := { Csrs.reset with state := 2, timeout := 1 } }, [0])],
    row.1.csr.state = 2 ∧ row.1.csr.rxvalid = false ∧ row.1.csr.pollcnt = 0 ∧ row.1.csr.timeout ≠ 0 ∧
      (∀ gap ∈ row.2.tail, gap % 2 ^ 32 ≠ 0) ∧ row.2.length ≤ row.1.csr.timeout.toNat := by decide

/-- Program P5's end: three polls, two ticks. -/
theorem test_emptyPolls : (emptyPolls [0, 1, 1] (polling 0 0 7 none)).csr.err = 6 ∧
    (emptyPolls [0, 1, 1] (polling 0 0 7 none)).csr.mspoll = 9 := by decide

/-- One state for each failing check and two that pass (strata 1 and 15). -/
theorem witness_ValidateReportsFirstFailure :
    ∀ row ∈ [(replied 0xDB 200 1, 7#4), (replied 0xDC 0 1, 8#4), (replied 0xE4 16 1, 9#4),
      (replied 0x24 16 1, 10#4), (replied 0x24 0 1, 11#4), (replied 0x24 1 1, 12#4),
      (replied 0xA4 1 0, 0#4), (replied 0x24 15 0, 0#4)],
    row.1.csr.state = 2 ∧ row.1.csr.rxvalid = true ∧ (after .validate row.1).csr.err = row.2 := by
  decide

/-- Two memories that differ in the pass-through byte 2, and in ref_id where the stratum is 2. -/
theorem witness_ValidateExaminesNoOtherByte :
    let s := replied 0x24 2 0
    let m := memWrite8 (memWrite8 s.mem 194 0xFF) 204 0
    s.csr.state = 2 ∧ s.csr.rxvalid = true ∧
      ∀ k < 48, k = 0 ∨ k = 1 ∨ 24 ≤ k ∨ (memRead8 s.mem 193 = 0 ∧ 12 ≤ k ∧ k ≤ 15) →
        memRead8 m (192 + k) = memRead8 s.mem (192 + k) := by decide

theorem witness_ComputeFollowsTheFormulas : validated.csr.state = 3 := by decide

/-- The largest seconds below 2^21, and the least and the largest from 2^31 on. -/
theorem witness_TimestampConversionRoundsOnce :
    (0x001FFFFFFFFFFFFF#64).toNat / 2 ^ 32 < 2 ^ 21 ∧
      2 ^ 31 ≤ (0x8000000000000000#64).toNat / 2 ^ 32 ∧
      2 ^ 31 ≤ (0xFFFFFFFFFFFFFFFF#64).toNat / 2 ^ 32 := by decide

/-- The largest timestamps and the largest elapsed time. -/
theorem witness_ComputeValuesAreFinite :
    ({ validated with
      x := { DataRegs.reset with
        t1 := 0xFFFFFFFFFFFFFFFF, t2 := 0xFFFFFFFFFFFFFFFF, t3 := 0xFFFFFFFFFFFFFFFF }
      csr := { Csrs.reset with state := 3, msrecv := 0xFFFFFFFF } } : State).csr.state = 3 := by
  decide

/-- A finite corrected time (V-Y1), and one that is no number. -/
theorem witness_SyncFollowsTheFormulas :
    computed.csr.state = 4 ∧ computed.csr.synced = false ∧
      f64Finite (correctedTime computed.x.offset computed.x.t4r 3) = true ∧
      f64Finite (correctedTime f64QNaN computed.x.t4r 3) = false := by decide +kernel

/-- A corrected time with a fraction (V-Y8), a whole one (V-Y9), and the largest finite one. -/
theorem witness_SleepIsAtMostOneSecond :
    f64Finite 0x4007FDF3B645A1CB = true ∧ f64Finite 0x4008000000000000 = true ∧
      (f64One : Int) ∣ f64Units 0x4008000000000000 ∧ f64Finite 0x7FEFFFFFFFFFFFFF = true := by
  decide +kernel

/-- One tick before the sleep's end, at its end, and a sleep of length zero. -/
theorem witness_WakeEndsTheSleep :
    let zero := { sleeping 6003 with csr := { (sleeping 6003).csr with sleepms := 0 } }
    (∀ s ∈ [sleeping 6949, sleeping 6950, zero], s.csr.state = 4 ∧ s.csr.synced = true) ∧
      ¬ (sleeping 6949).csr.sleepms ≤ (sleeping 6949).env.ms - (sleeping 6949).csr.mssync ∧
      ∀ s ∈ [sleeping 6950, zero], s.csr.sleepms ≤ s.env.ms - s.csr.mssync := by decide

/-- A finite result and, at the exact bound 2^1024 - 2^970, an infinite one. -/
theorem witness_RoundingIsToNearestEven :
    f64Finite (f64RN true ((2 ^ 1024 - 2 ^ 970) * f64One - 1) 1) = true ∧
      f64Finite (f64RN true ((2 ^ 1024 - 2 ^ 970) * f64One) 1) = false ∧
      f64Finite (f64RN false 1 3) = true := by decide +kernel

/-- Both zeros and the largest finite value; a nonzero divisor; and for each power of two a zero and the
least biased exponent whose quotient is normal. -/
theorem witness_SumsAreExactThenRounded :
    (f64Finite 0x8000000000000000 = true ∧ f64Finite 0 = true ∧ f64Finite 0x7FEFFFFFFFFFFFFF = true ∧
      f64Units F64_1000 ≠ 0) ∧
      (f64Units 0 = 0 ∧ 1 < f64Exp 0x0020000000000000 ∧ 16 < f64Exp 0x0110000000000000 ∧
        32 < f64Exp 0x0210000000000000) := by decide +kernel

/-- Zero, the largest value below 1, 1, and a negative value. -/
theorem witness_FloorIsExact :
    (f64Finite 0 = true ∧ 0 ≤ f64Units 0 ∧ f64Units 0 < f64One) ∧
      (f64Finite 0x3FEFFFFFFFFFFFFF = true ∧ 0 ≤ f64Units 0x3FEFFFFFFFFFFFFF ∧
        f64Units 0x3FEFFFFFFFFFFFFF < f64One) ∧
      (f64Finite 0x3FF0000000000000 = true ∧ 0 ≤ f64Units 0x3FF0000000000000) ∧
      f64Finite 0xBFE0000000000000 = true := by decide +kernel

/-- The first and the last field of each buffer. -/
theorem witness_FieldsAreBigEndian : (reply 0x24 2 0).wf = true ∧
    ∀ a ∈ [128, 168, 192, 232], ∀ i < 8, inBuffer (a + i) = true := by decide

/-- The failed exchange (V-V12) and the running ones meet the invariants. -/
theorem witness_StepKeepsErrIffFailed :
    ErrIffFailed failed ∧ LegalCodes failed ∧
      step (scheduled .tick [] failed) = .next (clockTick { failed with host := ⟨[], none⟩ }) := by
  refine ⟨?_, ?_, rfl⟩
  · unfold ErrIffFailed; decide
  · unfold LegalCodes; decide

theorem witness_StepKeepsFlagsAgree : FlagsAgree (replied 0x24 2 0) ∧
    Continues (scheduled .engine [] (replied 0x24 2 0)) := by
  refine ⟨?_, ⟨_, rfl⟩⟩
  unfold FlagsAgree; decide

theorem witness_StepKeepsUnreachedZero : UnreachedZero (replied 0x24 2 0) ∧
    Continues (scheduled .engine [] (replied 0x24 2 0)) := by
  refine ⟨?_, ⟨_, rfl⟩⟩
  unfold UnreachedZero; decide

theorem witness_StepKeepsPollBudget :
    (∀ s ∈ [polling 2 8 9 none, built true .ok], PollBudget s) ∧
      Continues (scheduled .engine [] (polling 2 8 9 none)) := by
  refine ⟨?_, ⟨_, rfl⟩⟩
  unfold PollBudget; decide

theorem witness_StepKeepsKissRecord :
    (∀ s ∈ [failed, replied 0x24 0 0], ErrIffFailed s ∧ KissRecord s) ∧
      Continues (scheduled .engine [] (replied 0x24 0 0)) := by
  refine ⟨?_, ⟨_, rfl⟩⟩
  unfold ErrIffFailed KissRecord; decide

theorem witness_StepKeepsBufferImage :
    (∀ s ∈ [polling 2 8 9 (some (datagram 0)), replied 0x24 2 0], BufferImage s) ∧
      Continues (scheduled .engine [] (polling 2 8 9 (some (datagram 0)))) := by
  refine ⟨?_, ⟨_, rfl⟩⟩
  unfold BufferImage; decide

/-- After COMPUTE, and after SYNC (CORR = 1002.05 is positive). -/
theorem witness_StepKeepsRealsInRange : RealsInRange computed ∧ RealsInRange (sleeping 6950) ∧
    Continues (scheduled .engine [] (sleeping 6950)) := by
  have measurement : MeasurementInRange measured := by
    unfold MeasurementInRange NonnegAtMostPow2 AtMostPow2
    refine ⟨?_, ?_, ?_, ?_, ?_, ⟨1000, ?_⟩, ?_⟩ <;> decide +kernel
  refine ⟨⟨measurement, ?_⟩, ⟨?_, ?_⟩, ⟨_, rfl⟩⟩
  · unfold CorrectedTimeInRange NonnegAtMostPow2 AtMostPow2; decide +kernel
  · exact measurement
  · unfold CorrectedTimeInRange NonnegAtMostPow2 AtMostPow2; decide +kernel

/-- A transition of each agent: the host's GETTIME, the engine's SEND, the reset. -/
theorem witness_NoOtherTransition :
    (stepped (scheduled .bus [0x011F0000000000000010#80] (base 0))).csr.state = 1 ∧
      (stepped (scheduled .engine [] (built true .ok))).csr.state = 2 ∧
      (stepped (scheduled .reset [] (built true .ok))).csr.state = 0 ∧
      (stepped (scheduled .engine [] (sleeping 6950))).csr.state = 5 := by decide

theorem witness_OnlyTheEngineWritesWhileBusy :
    let s := scheduled .bus [0x01000000000000000005#80] (polling 0 0 0 none)
    s.csr.state ∈ [1#3, 2#3, 3#3, 4#3] ∧ upcomingTurn s ≠ .reset ∧ upcomingTurn s ≠ .engine ∧
      upcomingTurn (scheduled .engine [] (polling 0 0 0 none)) ≠ .reset := by decide

/-- A SEC64 issued in Failed, and a tick in Failed while a GETTIME waits in the queue. -/
theorem witness_ResultsStayUntilGettime :
    let s := scheduled .bus [0x011F0000000000000001#80] failed
    s.csr.state ∈ [5#3, 6#3] ∧ upcomingTurn s ≠ .reset ∧
      s.host.queue = 0x011F0000000000000001#80 :: [] ∧
      decodeBusWord 0x011F0000000000000001#80 = .ok (.write 0x1F 0x01) ∧
      BitVec.extractLsb' 0 8 0x01#64 ≠ 0x10#8 ∧
      upcomingTurn (scheduled .tick [0x011F0000000000000010#80] failed) ≠ .bus ∧
      upcomingTurn (scheduled .tick [0x011F0000000000000010#80] failed) ≠ .reset := by decide

theorem witness_EngineStepLowersTheBound :
    (∀ s ∈ [built true .ok, polling 2 8 9 none, replied 0x24 2 0, validated, computed, sleeping 6950],
      PollBudget s ∧ engineEnabled s = true) ∧
      (built true .ok).csr.state = 1 ∧ stepsLeft (built true .ok) = 1029 := by
  unfold PollBudget; decide

theorem witness_ClockTicksLiftEveryHold :
    ∀ s ∈ [built true .ok, polling 1 5000 5000 none, replied 0x24 2 0, validated, computed, sleeping 6003],
    s.csr.state ∈ [1#3, 2#3, 3#3, 4#3] := by decide

/-- A state with a legal queue, and a word that is refused. -/
theorem witness_NothingStopsTheBlock :
    HostWordsLegal (scheduled .bus [0x00100000000000000000#80, 0x011F0000000000000010#80] (base 2)) ∧
      step (scheduled (.issue 0x021F0000000000000010#80) [] (base 0)) =
        .refused (.notATransaction 0x02) := by
  refine ⟨⟨?_, ?_⟩, rfl⟩
  · simp only [scheduled, List.forall_mem_cons, List.not_mem_nil, false_implies, implies_true,
      and_true]
    decide
  · intro w h; simp [scheduled, upcomingTurn] at h

end Sys2Proof.Tests
end

section
/-! PROOF. The reset (10_state.md R57): what a host read sees of the reset state, and O11. -/

namespace Sys2Proof.Machine

@[simp] theorem memRead8_nil (a : Nat) : memRead8 [] a = 0#8 := rfl

/-- A host read outside both buffers is a register read. -/
theorem hostRead_of_not_inBuffer (s : State) (a : Addr) (ha : inBuffer a.toNat = false) :
    hostRead s a = readRegister s a.toNat := by
  rw [hostRead, ha, if_neg Bool.false_ne_true]

/-- The addresses below 0x80, where TXBUF begins, are in no buffer. -/
theorem inBuffer_of_lt (a : Nat) (ha : a < 0x80) : inBuffer a = false := by
  rw [← Bool.not_eq_true, inBuffer_iff]
  omega

/-- `x[0]` to `x[14]` hold zero after reset, and `x[15]`, which is reserved, reads zero. -/
theorem readRegister_reset_of_data (a : Nat) (ha : a < 0x10) : readRegister State.reset a = 0 := by
  interval_cases a <;> rfl

theorem hostRead_reset_of_data (a : Addr) (ha : a.toNat < 0x10) : hostRead State.reset a = 0 := by
  rw [hostRead_of_not_inBuffer _ a (inBuffer_of_lt _ (by omega)), readRegister_reset_of_data _ ha]

/-- Nothing is listed in the memory after reset, so every byte of it reads zero. -/
theorem memRead8_reset (a : Nat) : memRead8 State.reset.mem a = 0 := memRead8_nil a

/-- Settles O11: the reset's turn is `applyReset`, whose fields are `State.reset`'s but for the
environment's, the host's and the schedule's; then those values are read off. -/
theorem resetGivesResetValues : Obligations.ResetGivesResetValues := by
  refine ⟨fun s => ⟨applyReset s, rfl, ?ms, ?x, ?csr, ?mem⟩, hostRead_reset_of_data, rfl,
    fun k _ => ⟨memRead8_reset _, memRead8_reset _⟩⟩
  case ms => rw [applyReset_env]
  case x => exact applyReset_x s
  case csr => exact applyReset_csr s
  case mem => exact applyReset_mem s

end Sys2Proof.Machine
end

section
/-! PROOF. The command map and the step map (30_encoding.md R86, R87, R91): O1 and O2. -/

namespace Sys2Proof

/-! ### Decoding by a table

Both decoders try the rows of a table in turn. Where no two rows select together, their order does
not matter. -/

/-- The instruction of the first row that selects, or the rejection. -/
def decodeRows {α : Type} (selects : α → Prop) [DecidablePred selects] (instr : α → Instr)
    (reject : Reject) : List α → Except Reject Instr
  | [] => .error reject
  | row :: rows => if selects row then .ok (instr row) else decodeRows selects instr reject rows

/-- Where the rows that select agree, the answer is the instruction of any row that selects. -/
theorem decodeRows_eq_ok_iff {α : Type} (selects : α → Prop) [DecidablePred selects]
    (instr : α → Instr) (reject : Reject) (rows : List α)
    (agree : ∀ row ∈ rows, ∀ row' ∈ rows, selects row → selects row' → instr row = instr row')
    (i : Instr) :
    decodeRows selects instr reject rows = .ok i ↔ ∃ row ∈ rows, instr row = i ∧ selects row := by
  induction rows with
  | nil => simp [decodeRows]
  | cons row rows ih =>
    rw [decodeRows]
    by_cases hsel : selects row
    · rw [if_pos hsel, Except.ok.injEq]
      constructor
      · intro hi
        exact ⟨row, List.mem_cons_self, hi, hsel⟩
      · rintro ⟨row', hrow', hi, hsel'⟩
        exact (agree row List.mem_cons_self row' hrow' hsel hsel').trans hi
    · have agree_rows : ∀ r ∈ rows, ∀ r' ∈ rows, selects r → selects r' → instr r = instr r' :=
        fun r hr r' hr' => agree r (List.mem_cons_of_mem row hr) r' (List.mem_cons_of_mem row hr')
      rw [if_neg hsel, ih agree_rows]
      simp [hsel]

/-! ### The command map -/

/-- The rows of R86: a command byte and its instruction. -/
def commandMap : List (Byte × Instr) :=
  [(0x00#8, .sec32), (0x01#8, .sec64), (0x02#8, .frac32), (0x03#8, .frac64), (0x04#8, .pack32),
    (0x05#8, .pack64), (0x08#8, .kisslk), (0x10#8, .gettime)]

theorem decodeCommand_eq_decodeRows (c : Byte) :
    decodeCommand c = decodeRows (fun row => c = row.1) Prod.snd (.reservedCommand c) commandMap :=
  rfl

/-- No byte stands in two rows of R86. -/
theorem commandMap_disjoint :
    ∀ row ∈ commandMap, ∀ row' ∈ commandMap, row.1 = row'.1 → row = row' := by
  decide

/-- Settles O1: the decoder answers the instruction of the row that has the byte, and there is only
one such row. -/
theorem commandMapIsExact : Obligations.CommandMapIsExact := by
  intro c i
  rw [decodeCommand_eq_decodeRows, decodeRows_eq_ok_iff]
  · constructor
    · rintro ⟨row, hrow, rfl, rfl⟩
      exact hrow
    · intro hrow
      exact ⟨(c, i), hrow, rfl, rfl⟩
  · intro row hrow row' hrow' hbyte hbyte'
    rw [commandMap_disjoint row hrow row' hrow' (hbyte.symm.trans hbyte')]

/-! ### The step map -/

/-- The rows of R91: an engine step, its match and its mask. -/
def stepMap : List (Instr × BitVec 5 × BitVec 5) :=
  [(.send, 0b00001#5, 0b00111#5), (.poll, 0b00010#5, 0b01111#5), (.validate, 0b01010#5, 0b01111#5),
    (.compute, 0b00011#5, 0b00111#5), (.sync, 0b00100#5, 0b10111#5), (.wake, 0b10100#5, 0b10111#5)]

/-- `(sel AND mask) = match` for a row of R91. -/
abbrev Selects (sel : BitVec 5) (row : Instr × BitVec 5 × BitVec 5) : Prop :=
  sel &&& row.2.2 = row.2.1

theorem decodeSelector_eq_decodeRows (sel : BitVec 5) :
    decodeSelector sel = decodeRows (Selects sel) Prod.fst (.noEngineStep sel) stepMap :=
  rfl

/-- The rows of R91 are pairwise disjoint (R90). -/
theorem stepMap_disjoint : ∀ sel : BitVec 5, ∀ row ∈ stepMap, ∀ row' ∈ stepMap,
    Selects sel row → Selects sel row' → row = row' := by
  decide

/-- The decoder answers the step of the row that selects, and there is at most one such row. -/
theorem decodeSelector_eq_ok_iff (sel : BitVec 5) (i : Instr) :
    decodeSelector sel = .ok i ↔ ∃ row ∈ stepMap, row.1 = i ∧ Selects sel row := by
  rw [decodeSelector_eq_decodeRows, decodeRows_eq_ok_iff]
  intro row hrow row' hrow' hsel hsel'
  rw [stepMap_disjoint sel row hrow row' hrow' hsel hsel']

/-- Every mask of R91 has the three bits of STATE, and every match a busy STATE in them. -/
theorem stepMap_state : ∀ row ∈ stepMap,
    row.2.2.setWidth 3 = BitVec.allOnes 3 ∧ row.2.1.setWidth 3 ∈ [1#3, 2#3, 3#3, 4#3] := by
  decide

/-- The low three bits of the selector are STATE (R90). -/
theorem selectorOf_setWidth (synced rxvalid : Bool) (state : BitVec 3) :
    (selectorOf synced rxvalid state).setWidth 3 = state :=
  BitVec.setWidth_append_eq_right

/-- A row of R91 selects in the busy states only. -/
theorem state_of_selects (synced rxvalid : Bool) (state : BitVec 3)
    (row : Instr × BitVec 5 × BitVec 5) (hrow : row ∈ stepMap)
    (hsel : Selects (selectorOf synced rxvalid state) row) : state ∈ [1#3, 2#3, 3#3, 4#3] := by
  obtain ⟨hmask, hmatch⟩ := stepMap_state row hrow
  have hstate : state = row.2.1.setWidth 3 := by
    rw [← hsel, BitVec.setWidth_and, hmask, BitVec.and_allOnes, selectorOf_setWidth]
  rwa [hstate]

/-- Settles O2: the decoder's answer is the row that selects; and a row selects only where STATE is
1 to 4. -/
theorem stepMapIsExact : Obligations.StepMapIsExact := by
  refine ⟨decodeSelector_eq_ok_iff, fun synced rxvalid state i hstate hd => ?_⟩
  obtain ⟨row, hrow, -, hsel⟩ := (decodeSelector_eq_ok_iff _ i).1 hd
  have hbusy := state_of_selects synced rxvalid state row hrow hsel
  have disjoint : ∀ t ∈ [0#3, 5#3, 6#3, 7#3], t ∉ [1#3, 2#3, 3#3, 4#3] := by decide
  exact disjoint state hstate hbusy

end Sys2Proof
end

section
/-! PROOF. GETTIME builds the request (42_engine_request_validate.md R150 to R152, 30_encoding.md
R101): how an 8-byte write reads back, then the memory after the clear and the build, and O25. -/

namespace Sys2Proof.Machine

/-! ### 8-byte writes (20_memory.md R61) -/

theorem bytesOf64_length (v : Word) : (bytesOf64 v).length = 8 := rfl

/-- Byte `k` of a big-endian value: the most significant byte is byte 0. -/
theorem bytesOf64_getElem (v : Word) (k : Nat) (h : k < (bytesOf64 v).length) :
    (bytesOf64 v)[k] = v.extractLsb' (8 * (7 - k)) 8 := by
  rw [bytesOf64_length] at h
  interval_cases k <;> rfl

theorem memWrite64_wf (m : Memory) (a : Nat) (v : Word) (hm : m.wf = true)
    (ha : ∀ i < 8, inBuffer (a + i) = true) : (memWrite64 m a v).wf = true :=
  memWriteBytes_wf (bytesOf64 v) m a hm ha

/-- A byte read after an 8-byte write to a buffer. -/
theorem memRead8_memWrite64 (m : Memory) (a a' : Nat) (v : Word) (hm : m.wf = true)
    (ha : ∀ i < 8, inBuffer (a + i) = true) :
    memRead8 (memWrite64 m a v) a' =
      if a ≤ a' ∧ a' < a + 8 then v.extractLsb' (8 * (7 - (a' - a))) 8 else memRead8 m a' := by
  rw [memWrite64, memRead8_memWriteBytes (bytesOf64 v) m a a' hm ha]
  exact dite_congr rfl (fun _ => bytesOf64_getElem v _ _) fun _ => rfl

/-! ### The clear and the build -/

/-- After GETTIME's clear every address reads zero. -/
theorem memRead8_clearBuffers (m : Memory) (a : Nat) (hm : m.wf = true) :
    memRead8 (clearBuffers m) a = 0#8 := by
  rw [clearBuffers_eq_nil m hm, memRead8_nil]

/-- The bytes of `transmit_time` in TXBUF are buffer addresses. -/
theorem inBuffer_transmitTime (i : Nat) (hi : i < 8) :
    inBuffer (Config.txBase + offXmt + i) = true := by
  rw [Nat.add_assoc]
  exact inBuffer_tx (offXmt + i) (by simp only [offXmt]; omega)

theorem buildRequest_mem (s : State) :
    (buildRequest s).mem = memWrite8 (memWrite64 s.mem (Config.txBase + offXmt) s.x.t1)
      (Config.txBase + offHeader) 0x23#8 := rfl

/-- The build writes the header byte and `transmit_time`, and no other byte (42 R152). -/
theorem memRead8_buildRequest (s : State) (a : Nat) (hm : s.mem.wf = true) :
    memRead8 (buildRequest s).mem a =
      if a = 128 then 0x23#8
      else if 168 ≤ a ∧ a < 176 then s.x.t1.extractLsb' (8 * (7 - (a - 168))) 8
      else memRead8 s.mem a := by
  rw [buildRequest_mem, memRead8_memWrite8 _ _ _ _ (memWrite64_wf _ _ _ hm inBuffer_transmitTime),
    memRead8_memWrite64 _ _ _ _ hm inBuffer_transmitTime]
  rfl

/-- The memory GETTIME leaves is the request image in TXBUF over zeros (R101). -/
theorem memRead8_request (s : State) (a : Nat) (hm : s.mem.wf = true) :
    memRead8 (buildRequest (clearExchange s)).mem a =
      if a = 128 then 0x23#8
      else if 168 ≤ a ∧ a < 176 then s.x.t1.extractLsb' (8 * (7 - (a - 168))) 8
      else 0#8 := by
  rw [memRead8_buildRequest _ a (by rw [clearExchange_mem]; exact clearBuffers_wf _ hm),
    clearExchange_x_t1, clearExchange_mem, memRead8_clearBuffers _ a hm]

/-- TXBUF after GETTIME (R101). -/
theorem memRead8_request_tx (s : State) (k : Nat) (hk : k < 48) (hm : s.mem.wf = true) :
    memRead8 (buildRequest (clearExchange s)).mem (128 + k) = Safety.requestByte s.x.t1 k := by
  rw [memRead8_request s _ hm, Safety.requestByte]
  by_cases h0 : k = 0
  · rw [if_pos (by omega), if_pos h0]
  · rw [if_neg (by omega), if_neg h0]
    by_cases h40 : k < 40
    · rw [if_neg (by omega), if_pos h40]
    · rw [if_pos (by omega), if_neg h40, show 7 - (128 + k - 168) = 47 - k by omega]

/-- Every address but TXBUF's reads zero after GETTIME, RXBUF's among them (R151). -/
theorem memRead8_request_not_tx (s : State) (a : Nat) (ha : ¬ (128 ≤ a ∧ a < 176))
    (hm : s.mem.wf = true) : memRead8 (buildRequest (clearExchange s)).mem a = 0#8 := by
  rw [memRead8_request s a hm, if_neg (by omega), if_neg (by omega)]

/-- GETTIME accepted with nonzero arguments clears and builds (R150). -/
theorem execGettime_builds (s : State) (hs : s.accepting = true) (ht : s.x.t1 ≠ 0)
    (hn : s.csr.timeout ≠ 0) : exec .gettime s = .next (buildRequest (clearExchange s)) := by
  have henabled : enabled .gettime s = true := hs
  rw [exec_eq, if_pos henabled, effectOf]
  rcases startExchange_cases (clearExchange s) with ⟨hzero, -⟩ | ⟨-, -, hbuild⟩
  · rw [clearExchange_x_t1, clearExchange_csr_timeout] at hzero
    exact absurd hzero (not_or.2 ⟨ht, hn⟩)
  · rw [hbuild]

/-- Settles O25: the memory is the one the build leaves after the clear, and it is read address by
address. -/
theorem gettimeBuildsTheRequest : Obligations.GettimeBuildsTheRequest := by
  refine ⟨rfl, fun s hs hm ht hn => ⟨(buildRequest (clearExchange s)).mem, ?step, ?tx, ?rx, ?frame⟩⟩
  case step =>
    have hacc : s.accepting = true := (accepting_iff s).2 (by simpa using hs)
    rw [execGettime_builds s hacc ht hn]
    simp only [buildRequest, clearExchange]
    rfl
  case tx => exact fun k hk => memRead8_request_tx s k hk hm
  case rx => exact fun k hk => memRead8_request_not_tx s _ (by omega) hm
  case frame =>
    intro a ha
    have hout : ¬ (128 ≤ a ∧ a < 176) := fun h => by simp [(inBuffer_iff a).2 (.inl h)] at ha
    rw [memRead8_request_not_tx s a hout hm, memRead8_outside s.mem a hm ha]

end Sys2Proof.Machine
end

section
/-! PROOF. Binary64 patterns and rounding (45_binary64.md R210, R211, R213): the number a pattern
with given low bits stands for, and when `f64RN` rounds nothing away. -/

namespace Sys2Proof.Machine

/-! ### The fields of a pattern (R210) -/

theorem f64Of_toNat (neg : Bool) (low : Nat) (h : low < 2 ^ 63) :
    (f64Of neg low).toNat = (if neg then 2 ^ 63 else 0) + low := by
  rw [f64Of, BitVec.toNat_ofNat, Nat.mod_eq_of_lt]
  split <;> omega

theorem f64Sign_f64Of (neg : Bool) (low : Nat) (h : low < 2 ^ 63) :
    f64Sign (f64Of neg low) = neg := by
  rw [f64Sign, ← BitVec.testBit_toNat, f64Of_toNat neg low h]
  cases neg with
  | false => simpa using Nat.testBit_lt_two_pow h
  | true => rw [if_pos rfl, Nat.testBit_two_pow_add_eq, Nat.testBit_lt_two_pow h, Bool.not_false]

theorem f64Exp_f64Of (neg : Bool) (low : Nat) (h : low < 2 ^ 63) :
    f64Exp (f64Of neg low) = low / 2 ^ 52 := by
  rw [f64Exp, BitVec.extractLsb'_toNat, f64Of_toNat neg low h, Nat.shiftRight_eq_div_pow]
  split <;> omega

theorem f64Frac_f64Of (neg : Bool) (low : Nat) (h : low < 2 ^ 63) :
    f64Frac (f64Of neg low) = low % 2 ^ 52 := by
  rw [f64Frac, BitVec.extractLsb'_toNat, f64Of_toNat neg low h, Nat.shiftRight_zero]
  split <;> omega

/-- Low bits below the infinity's give a finite pattern. -/
theorem f64Finite_f64Of (neg : Bool) (low : Nat) (h : low < f64InfLow) :
    f64Finite (f64Of neg low) = true := by
  rw [f64InfLow] at h
  rw [f64Finite, f64Exp_f64Of neg low (by omega), bne_iff_ne]
  omega

/-- A significand `c` counted on top of `k` binades stands for `c * 2^k` units: `c` stays below
`2^53`, or is `2^53` and begins the next binade, and only the lowest binade has `c` below `2^52`. -/
theorem f64Mag_f64Of (neg : Bool) (k c : Nat) (hlow : 2 ^ 52 * k + c < f64InfLow)
    (hc : c ≤ 2 ^ 53) (hk : k = 0 ∨ 2 ^ 52 ≤ c) :
    f64Mag (f64Of neg (2 ^ 52 * k + c)) = c * 2 ^ k := by
  rw [f64InfLow] at hlow
  have h63 : 2 ^ 52 * k + c < 2 ^ 63 := by omega
  rw [f64Mag, f64Exp_f64Of neg _ h63, f64Frac_f64Of neg _ h63]
  rcases Nat.lt_or_ge c (2 ^ 52) with hsub | hnormal
  · obtain rfl : k = 0 := by omega
    rw [if_pos (by omega), Nat.mod_eq_of_lt (by omega)]
    omega
  rcases Nat.lt_or_eq_of_le hc with hlt | rfl
  · have hexp : (2 ^ 52 * k + c) / 2 ^ 52 = k + 1 := by omega
    have hfrac : 2 ^ 52 + (2 ^ 52 * k + c) % 2 ^ 52 = c := by omega
    rw [hexp, hfrac, if_neg (by omega), Nat.add_sub_cancel]
  · have hexp : (2 ^ 52 * k + 2 ^ 53) / 2 ^ 52 = k + 1 + 1 := by omega
    have hfrac : 2 ^ 52 + (2 ^ 52 * k + 2 ^ 53) % 2 ^ 52 = 2 ^ 52 := by omega
    rw [hexp, hfrac, if_neg (by omega), Nat.add_sub_cancel, pow_succ 2 k, pow_succ 2 52]
    ring

theorem f64IsNaN_of_finite (p : Word) (h : f64Finite p = true) : f64IsNaN p = false := by
  rw [f64Finite, bne_iff_ne] at h
  rw [f64IsNaN, beq_false_of_ne h, Bool.false_and]

theorem f64IsInf_of_finite (p : Word) (h : f64Finite p = true) : f64IsInf p = false := by
  rw [f64Finite, bne_iff_ne] at h
  rw [f64IsInf, beq_false_of_ne h, Bool.false_and]

theorem f64Units_of_not_sign (p : Word) (h : f64Sign p = false) : f64Units p = f64Mag p := by
  rw [f64Units, h, if_neg Bool.false_ne_true]

/-! ### Rounding to an integer -/

theorem roundHalfEven_of_dvd (num den : Nat) (h : den ∣ num) (hden : 0 < den) :
    roundHalfEven num den = num / den := by
  rw [roundHalfEven, Nat.mod_eq_zero_of_dvd h]
  simp [hden]

/-- Rounding gives the floor or the next integer. -/
theorem roundHalfEven_bounds (num den : Nat) :
    num / den ≤ roundHalfEven num den ∧ roundHalfEven num den ≤ num / den + 1 := by
  unfold roundHalfEven
  dsimp only
  split_ifs <;> omega

/-! ### Rounding to a pattern (R211) -/

/-- The exponent `k` of the binade of `num / den` units: its values are `2^k` units apart. -/
def rnBinade (num den : Nat) : Nat := (num / den).log2 - 52

/-- The rounded significand of `num / den` units. -/
def rnSignificand (num den : Nat) : Nat := roundHalfEven num (den * 2 ^ rnBinade num den)

theorem rnLow_eq (num den : Nat) :
    rnLow num den = min (2 ^ 52 * rnBinade num den + rnSignificand num den) f64InfLow := rfl

/-- The significand has at most 53 bits, or was rounded up to `2^53`. -/
theorem rnSignificand_le (num den : Nat) : rnSignificand num den ≤ 2 ^ 53 := by
  have hlog : num / den < 2 ^ (rnBinade num den + 53) :=
    Nat.lt_log2_self.trans_le (Nat.pow_le_pow_right two_pos (by rw [rnBinade]; omega))
  have hfloor : num / (den * 2 ^ rnBinade num den) < 2 ^ 53 := by
    rw [← Nat.div_div_eq_div_mul]
    exact Nat.div_lt_of_lt_mul (by rwa [← pow_add])
  exact (roundHalfEven_bounds _ _).2.trans hfloor

/-- Above the lowest binade the significand has its leading bit. -/
theorem le_rnSignificand (num den : Nat) :
    rnBinade num den = 0 ∨ 2 ^ 52 ≤ rnSignificand num den := by
  rcases Nat.eq_zero_or_pos (rnBinade num den) with hzero | hpos
  · exact .inl hzero
  right
  have hlog : 2 ^ (52 + rnBinade num den) ≤ num / den := by
    have hlog2 : 52 + rnBinade num den = (num / den).log2 := by rw [rnBinade] at *; omega
    rw [hlog2]
    exact Nat.log2_self_le fun hq => by simp [rnBinade, hq] at hpos
  have hfloor : 2 ^ 52 ≤ num / (den * 2 ^ rnBinade num den) := by
    rw [← Nat.div_div_eq_div_mul, Nat.le_div_iff_mul_le (by positivity), ← pow_add]
    exact hlog
  exact hfloor.trans (roundHalfEven_bounds _ _).1

/-- `p` is the finite pattern of sign `neg` and magnitude `mag` units. -/
structure F64Is (p : Word) (neg : Bool) (mag : Nat) : Prop where
  finite : f64Finite p = true
  sign : f64Sign p = neg
  mag_eq : f64Mag p = mag

/-- Short of overflow the result is the rounded significand in its binade. -/
theorem f64RN_is (neg : Bool) (num den : Nat)
    (h : 2 ^ 52 * rnBinade num den + rnSignificand num den < f64InfLow) :
    F64Is (f64RN neg num den) neg (rnSignificand num den * 2 ^ rnBinade num den) := by
  have hlow : rnLow num den = 2 ^ 52 * rnBinade num den + rnSignificand num den := by
    rw [rnLow_eq, min_eq_left h.le]
  have h63 : 2 ^ 52 * rnBinade num den + rnSignificand num den < 2 ^ 63 :=
    h.trans (by norm_num [f64InfLow])
  rw [f64RN, hlow]
  exact ⟨f64Finite_f64Of neg _ h, f64Sign_f64Of neg _ h63,
    f64Mag_f64Of neg _ _ h (rnSignificand_le num den) (le_rnSignificand num den)⟩

/-- `RN` is exact on the numbers of at most 53 significant bits in the range of the finite
patterns. -/
theorem f64RN_exact (neg : Bool) (num den m e : Nat) (hden : 0 < den)
    (hnum : num = den * (m * 2 ^ e)) (hm : m < 2 ^ 53) (he : e ≤ 2045) : F64Is (f64RN neg num den) neg (m * 2 ^ e) := by
  have hq : num / den = m * 2 ^ e := by rw [hnum, Nat.mul_div_cancel_left _ hden]
  have hke : rnBinade num den ≤ e := by
    rw [rnBinade, hq]
    rcases Nat.eq_zero_or_pos m with rfl | hpos
    · simp
    · have hlog : (m * 2 ^ e).log2 < 53 + e := by
        rw [Nat.log2_lt (by positivity), pow_add]
        exact Nat.mul_lt_mul_of_pos_right hm (by positivity)
      omega
  obtain ⟨d, hd⟩ := Nat.exists_eq_add_of_le hke
  have hsplit : num = den * 2 ^ rnBinade num den * (m * 2 ^ d) := by
    conv_lhs => rw [hnum, hd]
    ring
  have hstep : 0 < den * 2 ^ rnBinade num den := by positivity
  have hsig : rnSignificand num den = m * 2 ^ d := by
    rw [rnSignificand, roundHalfEven_of_dvd _ _ (Dvd.intro _ hsplit.symm) hstep]
    exact Nat.div_eq_of_eq_mul_right hstep hsplit
  have hmag : rnSignificand num den * 2 ^ rnBinade num den = m * 2 ^ e := by
    conv_rhs => rw [hd]
    rw [hsig]
    ring
  have hfit : 2 ^ 52 * rnBinade num den + rnSignificand num den < f64InfLow := by
    have hle := rnSignificand_le num den
    rw [f64InfLow]
    rcases Nat.eq_zero_or_pos d with rfl | hpos
    · rw [pow_zero, Nat.mul_one] at hsig
      omega
    · omega
  rw [← hmag]
  exact f64RN_is neg num den hfit

end Sys2Proof.Machine
end

section
/-! PROOF. The codec's reals: a 32-bit integer and its quotient by `2^16` or `2^32` are exact
(45_binary64.md R213, R216; 40_codec.md R114, R115), and `ts_to_real` rounds once (R121): O37. -/

namespace Sys2Proof.Machine

/-! ### Exact operands and quotients -/

theorem f64One_pos : 0 < f64One := by
  rw [f64One]
  positivity

/-- `n * 2^M` units are `n / 2^N`, where `N + M = 1074`. -/
theorem twoPow_mul_units (N M n : Nat) (hNM : N + M = 1074) : 2 ^ N * (n * 2 ^ M) = f64One * n := by
  rw [f64One, ← hNM, pow_add]
  ring

/-- `u32_to_f64` is exact (R213). -/
theorem u32ToF64_is (n : Half) : F64Is (u32ToF64 n) false (n.toNat * 2 ^ 1074) :=
  f64RN_exact false _ 1 n.toNat 1074 one_pos (by rw [f64One, Nat.one_mul, Nat.mul_comm])
    (by omega) (by omega)

/-- The pattern of `2^N`: exponent `1023 + N` and fraction 0. -/
theorem f64Of_twoPow_is (N : Nat) (hN : N ≤ 1023) :
    F64Is (f64Of false (2 ^ 52 * (1022 + N) + 2 ^ 52)) false (2 ^ N * f64One) := by
  have hlow : 2 ^ 52 * (1022 + N) + 2 ^ 52 < f64InfLow := by rw [f64InfLow]; omega
  have hmag : 2 ^ 52 * 2 ^ (1022 + N) = 2 ^ N * f64One := by
    rw [f64One, ← pow_add, ← pow_add]
    congr 1
    omega
  refine ⟨f64Finite_f64Of false _ hlow, f64Sign_f64Of false _ (by omega), ?_⟩
  rw [f64Mag_f64Of false _ _ hlow (by omega) (.inr le_rfl), hmag]

theorem f64_2P16_is : F64Is F64_2P16 false (2 ^ 16 * f64One) := f64Of_twoPow_is 16 (by omega)

theorem f64_2P32_is : F64Is F64_2P32 false (2 ^ 32 * f64One) := f64Of_twoPow_is 32 (by omega)

/-- The quotient of two finite nonnegative patterns is the exact one rounded once (R216). -/
theorem f64Div_eq_f64RN (a b : Word) (x y : Nat) (ha : F64Is a false x) (hb : F64Is b false y)
    (hy : y ≠ 0) : f64Div a b = f64RN false (f64One * x) y := by
  simp [f64Div, f64IsNaN_of_finite, f64IsInf_of_finite, ha.finite, hb.finite, ha.sign, hb.sign,
    ha.mag_eq, hb.mag_eq, hy]

/-- The sum of two finite nonnegative patterns is the exact one rounded once (R215). -/
theorem f64Add_eq_f64RN (a b : Word) (x y : Nat) (ha : F64Is a false x) (hb : F64Is b false y) :
    f64Add a b = f64RN false (x + y) 1 := by
  have hzero : f64Of false 0 = f64RN false 0 1 := by decide
  have hunits : f64Units a + f64Units b = ((x + y : Nat) : Int) := by
    rw [f64Units_of_not_sign a ha.sign, f64Units_of_not_sign b hb.sign, ha.mag_eq, hb.mag_eq,
      Nat.cast_add]
  simp only [f64Add, f64IsNaN_of_finite, f64IsInf_of_finite, ha.finite, hb.finite, hunits, ha.sign,
    hb.sign, Bool.or_self, Bool.and_self, Bool.false_eq_true, if_false, Int.natAbs_natCast,
    Int.natCast_eq_zero]
  split
  · next hsum => rw [hsum, hzero]
  · rw [decide_eq_false (by omega)]

/-- A 32-bit integer divided by a power of two is exact. -/
theorem f64Div_twoPow_is (n : Half) (c : Word) (N M : Nat) (hNM : N + M = 1074)
    (hc : F64Is c false (2 ^ N * f64One)) :
    F64Is (f64Div (u32ToF64 n) c) false (n.toNat * 2 ^ M) := by
  have hpos : 0 < 2 ^ N * f64One := Nat.mul_pos (Nat.two_pow_pos N) f64One_pos
  have hquot : f64One * (n.toNat * 2 ^ 1074) = 2 ^ N * f64One * (n.toNat * 2 ^ M) := by
    rw [Nat.mul_comm (2 ^ N), Nat.mul_assoc, twoPow_mul_units N M _ hNM, f64One,
      Nat.mul_comm n.toNat]
  rw [f64Div_eq_f64RN _ _ _ _ (u32ToF64_is n) hc hpos.ne']
  exact f64RN_exact false _ _ n.toNat M hpos hquot (by omega) (by omega)

theorem shortFraction_toNat (v : Half) : (shortFraction v).toNat = v.toNat % 2 ^ 16 := by
  rw [shortFraction, BitVec.extractLsb'_toNat, Nat.shiftRight_zero]

theorem longFraction_toNat (v : Word) : (longFraction v).toNat = v.toNat % 2 ^ 32 := by
  rw [longFraction, BitVec.extractLsb'_toNat, Nat.shiftRight_zero]

theorem longSeconds_toNat (v : Word) : (longSeconds v).toNat = v.toNat / 2 ^ 32 := by
  rw [longSeconds, BitVec.extractLsb'_toNat, Nat.shiftRight_eq_div_pow,
    Nat.mod_eq_of_lt (by omega)]

theorem shortSeconds_toNat (v : Half) : (shortSeconds v).toNat = v.toNat / 2 ^ 16 := by
  rw [shortSeconds, BitVec.extractLsb'_toNat, Nat.shiftRight_eq_div_pow,
    Nat.mod_eq_of_lt (by omega)]

/-- The fraction of a short timestamp is exact (R114). -/
theorem shortFractionReal_is (v : Half) :
    F64Is (shortFractionReal v) false (v.toNat % 2 ^ 16 * 2 ^ 1058) := by
  have h := f64Div_twoPow_is ((shortFraction v).setWidth 32) F64_2P16 16 1058 rfl f64_2P16_is
  rwa [BitVec.toNat_setWidth_of_le (by omega), shortFraction_toNat] at h

/-- The fraction of a long timestamp is exact (R115). -/
theorem longFractionReal_is (v : Word) :
    F64Is (longFractionReal v) false (v.toNat % 2 ^ 32 * 2 ^ 1042) := by
  have h := f64Div_twoPow_is (longFraction v) F64_2P32 32 1042 rfl f64_2P32_is
  rwa [longFraction_toNat] at h

/-! ### The conversion of a whole timestamp (R121) -/

/-- Both addends are exact, so the sum is rounded once. -/
theorem tsToReal_eq_f64RN (v : Word) : tsToReal v = f64RN false (2 ^ 1042 * v.toNat) 1 := by
  have hsum : v.toNat / 2 ^ 32 * 2 ^ 1074 + v.toNat % 2 ^ 32 * 2 ^ 1042 = 2 ^ 1042 * v.toNat := by
    have hunit : 2 ^ 1074 = 2 ^ 32 * 2 ^ 1042 := by rw [← pow_add]
    calc v.toNat / 2 ^ 32 * 2 ^ 1074 + v.toNat % 2 ^ 32 * 2 ^ 1042
        = (v.toNat / 2 ^ 32 * 2 ^ 32 + v.toNat % 2 ^ 32) * 2 ^ 1042 := by
          rw [hunit, ← Nat.mul_assoc, Nat.add_mul]
      _ = 2 ^ 1042 * v.toNat := by rw [Nat.div_add_mod', Nat.mul_comm]
  rw [tsToReal, f64Add_eq_f64RN _ _ _ _ (u32ToF64_is _) (longFractionReal_is v), longSeconds_toNat,
    hsum]

/-- Below `2^21` seconds a timestamp has at most 53 significant bits. -/
theorem tsToReal_exact (v : Word) (h : v.toNat / 2 ^ 32 < 2 ^ 21) :
    F64Is (tsToReal v) false (2 ^ 1042 * v.toNat) := by
  rw [tsToReal_eq_f64RN, Nat.mul_comm]
  exact f64RN_exact false _ 1 v.toNat 1042 one_pos (Nat.one_mul _).symm (by omega) (by omega)

theorem log2_twoPow_mul (e m : Nat) (hm : m ≠ 0) : (2 ^ e * m).log2 = e + m.log2 := by
  rw [Nat.log2_eq_iff (by positivity), Nat.add_assoc, pow_add, pow_add]
  exact ⟨Nat.mul_le_mul_left _ (Nat.log2_self_le hm),
    Nat.mul_lt_mul_of_pos_left Nat.lt_log2_self (by positivity)⟩

/-- From `2^31` seconds on the patterns are `2^1053` units, that is `2^-21`, apart. -/
theorem rnBinade_tsToReal (v : Word) (h : 2 ^ 31 ≤ v.toNat / 2 ^ 32) :
    rnBinade (2 ^ 1042 * v.toNat) 1 = 1053 := by
  have hne : v.toNat ≠ 0 := by omega
  have hlog : v.toNat.log2 = 63 := (Nat.log2_eq_iff hne).2 (by omega)
  rw [rnBinade, Nat.div_one, log2_twoPow_mul _ _ hne, hlog]

theorem dvd_f64Mag_tsToReal (v : Word) (h : 2 ^ 31 ≤ v.toNat / 2 ^ 32) :
    2 ^ 1053 ∣ f64Mag (tsToReal v) := by
  have hbinade := rnBinade_tsToReal v h
  have hle := rnSignificand_le (2 ^ 1042 * v.toNat) 1
  have his := f64RN_is false (2 ^ 1042 * v.toNat) 1 (by rw [hbinade, f64InfLow]; omega)
  rw [tsToReal_eq_f64RN, his.mag_eq, hbinade]
  exact Nat.dvd_mul_left _ _

/-- Settles O37: the sum is rounded once; where the exact sum has 53 bits nothing is rounded away,
and from `2^31` seconds on the result is a significand times `2^1053` units. -/
theorem timestampConversionRoundsOnce : Obligations.TimestampConversionRoundsOnce := by
  refine ⟨tsToReal_eq_f64RN, fun v h => ?exact, dvd_f64Mag_tsToReal, ?largest⟩
  case exact =>
    have his := tsToReal_exact v h
    exact ⟨his.finite, his.sign, his.mag_eq⟩
  case largest => decide +kernel

end Sys2Proof.Machine
end

section
/-! PROOF. The codec's commands (40_codec.md R112 to R119). What SEC, FRAC and PACK of one width do
is said once, for width `N`, in `CodecOf`; O17 to O20 are its fields, and the round-trip law O23
follows from it for every width. -/

namespace Sys2Proof.Machine

/-! ### One width of the codec -/

/-- `p` is finite and stands for a real in [0, 1), the reals R119 is about. -/
structure F64Fraction (p : Word) : Prop where
  finite : f64Finite p = true
  nonneg : 0 ≤ f64Units p
  lt_one : f64Units p < f64One

/-- What PACK puts into an `N`-bit field for a real in [0, 1) of `mag` units (R118). -/
def fieldOf (N mag : Nat) : Nat := 2 ^ N * mag / f64One

/-- The commands `pack`, `sec` and `frac` are the codec of the `2N`-bit timestamps. -/
structure CodecOf (N : Nat) (pack sec frac : Instr) : Prop where
  sec_spec : ∀ s : State, s.accepting = true →
    ∃ v, exec sec s = .next (setRes v s) ∧ v.toNat = s.x.opa.toNat % 2 ^ (2 * N) / 2 ^ N
  frac_spec : ∀ s : State, s.accepting = true →
    ∃ v mag, exec frac s = .next (setRes v s) ∧ F64Is v false mag ∧
      2 ^ N * mag = f64One * (s.x.opa.toNat % 2 ^ N)
  pack_spec : ∀ s : State, s.accepting = true → F64Fraction s.x.opf →
    ∃ v, exec pack s = .next (setRes v s) ∧
      v.toNat = s.x.ops.toNat % 2 ^ N * 2 ^ N + fieldOf N (f64Mag s.x.opf)

theorem accepting_of_mem (s : State) (h : s.csr.state ∈ [0#3, 5#3, 6#3]) : s.accepting = true :=
  (accepting_iff s).2 (by simpa using h)

/-- An enabled instruction takes its effect. -/
theorem exec_of_enabled (i : Instr) (s : State) (h : enabled i s = true) :
    exec i s = .next (effectOf i s) := by
  rw [exec_eq, if_pos h]

theorem countFree_of_finite (p : Word) (n : Nat) (s : State) (h : f64Finite p = true) :
    countFree p n s = s := by
  rw [countFree, if_pos h]

/-! ### Operands and fields (R98, R99, R111, R118) -/

theorem opa32_toNat (s : State) : (opa32 s).toNat = s.x.opa.toNat % 2 ^ 32 := by
  rw [opa32, BitVec.extractLsb'_toNat, Nat.shiftRight_zero]

theorem ops16_toNat (s : State) : (ops16 s).toNat = s.x.ops.toNat % 2 ^ 16 := by
  rw [ops16, BitVec.extractLsb'_toNat, Nat.shiftRight_zero]

theorem ops32_toNat (s : State) : (ops32 s).toNat = s.x.ops.toNat % 2 ^ 32 := by
  rw [ops32, BitVec.extractLsb'_toNat, Nat.shiftRight_zero]

/-- Concatenation as arithmetic: the high part above the low one's bits. -/
theorem append_toNat_eq {m n : Nat} (hi : BitVec m) (lo : BitVec n) :
    (hi ++ lo).toNat = hi.toNat * 2 ^ n + lo.toNat := by
  rw [BitVec.toNat_append, ← Nat.shiftLeft_add_eq_or_of_lt lo.isLt, Nat.shiftLeft_eq]

/-- A nonnegative real is its magnitude; -0.0 is the one with a sign. -/
theorem f64Mag_eq_units (p : Word) (h : 0 ≤ f64Units p) : (f64Mag p : Int) = f64Units p := by
  cases hsign : f64Sign p with
  | false => exact (f64Units_of_not_sign p hsign).symm
  | true =>
    rw [f64Units, if_pos hsign] at h ⊢
    omega

theorem F64Fraction.mag_lt {p : Word} (h : F64Fraction p) : f64Mag p < f64One := by
  have hmag := f64Mag_eq_units p h.nonneg
  have hlt := h.lt_one
  omega

theorem F64Is.fraction {p : Word} {mag : Nat} (h : F64Is p false mag) (hlt : mag < f64One) :
    F64Fraction p := by
  have hunits := f64Units_of_not_sign p h.sign
  rw [h.mag_eq] at hunits
  exact ⟨h.finite, by omega, by omega⟩

theorem fieldOf_lt (N mag : Nat) (h : mag < f64One) : fieldOf N mag < 2 ^ N := by
  rw [fieldOf, Nat.div_lt_iff_lt_mul f64One_pos]
  exact Nat.mul_lt_mul_of_pos_left h (by positivity)

/-- The field of an exact `n / 2^N` is `n`. -/
theorem fieldOf_of_exact (N mag n : Nat) (h : 2 ^ N * mag = f64One * n) : fieldOf N mag = n := by
  rw [fieldOf, h, Nat.mul_div_cancel_left _ f64One_pos]

/-- The field of a real in [0, 1); -0.0 is such a real, and its field is zero. -/
theorem fracField_toNat (f : Word) (N : Nat) (free : BitVec N) (hf : F64Fraction f) :
    (fracField f N free).toNat = fieldOf N (f64Mag f) := by
  have hfield : (BitVec.ofNat N (2 ^ N * f64Mag f / f64One)).toNat = fieldOf N (f64Mag f) :=
    Nat.mod_eq_of_lt (fieldOf_lt N _ hf.mag_lt)
  rw [fracField, f64ToUint, if_pos hf.finite]
  dsimp only
  split
  · next hsign =>
    have hmag := f64Mag_eq_units f hf.nonneg
    rw [f64Units, if_pos hsign] at hmag
    have hzero : f64Mag f = 0 := by omega
    simp [hzero, fieldOf]
  · exact hfield

/-! ### The two codecs -/

/-- SEC32, FRAC32 and PACK32 (R112, R114, R116). -/
theorem codecOf_short : CodecOf 16 .pack32 .sec32 .frac32 where
  sec_spec s h := by
    refine ⟨_, exec_of_enabled .sec32 s h, ?_⟩
    rw [BitVec.toNat_setWidth_of_le (by omega), shortSeconds_toNat, opa32_toNat]
  frac_spec s h := by
    refine ⟨_, _, exec_of_enabled .frac32 s h, shortFractionReal_is _, ?_⟩
    rw [twoPow_mul_units 16 1058 _ rfl, opa32_toNat, Nat.mod_mod_of_dvd _ (by decide)]
  pack_spec s h hf := by
    refine ⟨pack32Value s, ?_, ?_⟩
    · rw [exec_of_enabled .pack32 s h, effectOf, countFree_of_finite _ _ _ hf.finite]
    · rw [pack32Value, shortOf, BitVec.toNat_setWidth_of_le (by omega), append_toNat_eq,
        ops16_toNat, fracField_toNat _ _ _ hf]

/-- SEC64, FRAC64 and PACK64 (R113, R115, R117). -/
theorem codecOf_long : CodecOf 32 .pack64 .sec64 .frac64 where
  sec_spec s h := by
    refine ⟨_, exec_of_enabled .sec64 s h, ?_⟩
    rw [BitVec.toNat_setWidth_of_le (by omega), longSeconds_toNat, opa64,
      Nat.mod_eq_of_lt s.x.opa.isLt]
  frac_spec s h :=
    ⟨_, _, exec_of_enabled .frac64 s h, longFractionReal_is _, twoPow_mul_units 32 1042 _ rfl⟩
  pack_spec s h hf := by
    refine ⟨pack64Value s, ?_, ?_⟩
    · rw [exec_of_enabled .pack64 s h, effectOf, countFree_of_finite _ _ _ hf.finite]
    · rw [pack64Value, longOf, append_toNat_eq, ops32_toNat, fracField_toNat _ _ _ hf]

/-! ### The commands one by one -/

/-- Settles O17, by what SEC does for 16-bit fields. -/
theorem sec32TakesShortSeconds : Obligations.Sec32TakesShortSeconds :=
  ⟨rfl, fun s hs => codecOf_short.sec_spec s (accepting_of_mem s hs)⟩

/-- Settles O18, by what SEC does for 32-bit fields, where the timestamp is all of `x[OPA]`. -/
theorem sec64TakesLongSeconds : Obligations.Sec64TakesLongSeconds := by
  refine ⟨rfl, fun s hs => ?_⟩
  obtain ⟨v, hexec, hv⟩ := codecOf_long.sec_spec s (accepting_of_mem s hs)
  exact ⟨v, hexec, by rw [hv, Nat.mod_eq_of_lt s.x.opa.isLt]⟩

/-- Settles O19, by what FRAC does for 16-bit fields. -/
theorem frac32IsExact : Obligations.Frac32IsExact := by
  refine ⟨rfl, fun s hs => ?_⟩
  obtain ⟨v, mag, hexec, his, hmag⟩ := codecOf_short.frac_spec s (accepting_of_mem s hs)
  exact ⟨v, hexec, his.finite, his.sign, by rw [his.mag_eq, hmag]⟩

/-- Settles O20, by what FRAC does for 32-bit fields. -/
theorem frac64IsExact : Obligations.Frac64IsExact := by
  refine ⟨rfl, fun s hs => ?_⟩
  obtain ⟨v, mag, hexec, his, hmag⟩ := codecOf_long.frac_spec s (accepting_of_mem s hs)
  exact ⟨v, hexec, his.finite, his.sign, by rw [his.mag_eq, hmag]⟩

/-! ### The round trip (R119) -/

/-- The seconds above the field of a packed timestamp. -/
theorem packed_div (N sec field : Nat) (hsec : sec < 2 ^ N) (hfield : field < 2 ^ N) :
    (sec * 2 ^ N + field) % 2 ^ (2 * N) / 2 ^ N = sec := by
  rw [Nat.two_mul, pow_add, Nat.mod_mul_right_div_self, Nat.add_comm,
    Nat.add_mul_div_right _ _ (Nat.two_pow_pos N), Nat.div_eq_of_lt hfield, Nat.zero_add,
    Nat.mod_eq_of_lt hsec]

/-- How far `mag' = floor(mag * 2^N) / 2^N` is below `mag`. -/
theorem truncated_bounds (N mag mag' : Nat) (h : 2 ^ N * mag' = f64One * fieldOf N mag) :
    mag' ≤ mag ∧ 2 ^ N * mag < 2 ^ N * mag' + f64One ∧
      (mag' = mag ↔ f64One ∣ 2 ^ N * mag) := by
  rw [fieldOf] at h
  refine ⟨?le, ?lt, ?eq⟩
  case le =>
    refine Nat.le_of_mul_le_mul_left ?_ (Nat.two_pow_pos N)
    rw [h]
    exact Nat.mul_div_le _ _
  case lt =>
    rw [h, ← Nat.mul_succ]
    exact Nat.lt_mul_div_succ _ f64One_pos
  case eq =>
    rw [← Nat.mul_right_inj (Nat.two_pow_pos N).ne', h]
    exact Nat.mul_div_eq_iff_dvd

/-- The state in which the packed result `v` is read back: `x[RES]` copied to `x[OPA]`. -/
def readBack (v : Word) (s : State) : State :=
  { setRes v s with x := { (setRes v s).x with opa := (setRes v s).x.res } }

theorem readBack_accepting (v : Word) (s : State) : (readBack v s).accepting = s.accepting := rfl

@[simp] theorem readBack_opa (v : Word) (s : State) : (readBack v s).x.opa = v := rfl

/-- R119 forward: SEC gives the seconds back, and FRAC the real of the field PACK made. -/
theorem CodecOf.unpack_pack {N : Nat} {pack sec frac : Instr} (codec : CodecOf N pack sec frac)
    (s : State) (hs : s.accepting = true) (hops : s.x.ops.toNat < 2 ^ N)
    (hf : F64Fraction s.x.opf) :
    ∃ v f mag, exec pack s = .next (setRes v s) ∧
      exec sec (readBack v s) = .next (setRes s.x.ops (readBack v s)) ∧
      exec frac (readBack v s) = .next (setRes f (readBack v s)) ∧
      F64Is f false mag ∧ 2 ^ N * mag = f64One * fieldOf N (f64Mag s.x.opf) := by
  obtain ⟨v, hpack, hv⟩ := codec.pack_spec s hs hf
  have hback : (readBack v s).accepting = true := (readBack_accepting v s).trans hs
  obtain ⟨seconds, hsec, hseconds⟩ := codec.sec_spec (readBack v s) hback
  obtain ⟨f, mag, hfrac, his, hmag⟩ := codec.frac_spec (readBack v s) hback
  have hfield := fieldOf_lt N _ hf.mag_lt
  rw [Nat.mod_eq_of_lt hops] at hv
  rw [readBack_opa, hv, packed_div N _ _ hops hfield] at hseconds
  rw [readBack_opa, hv, Nat.mul_add_mod_of_lt hfield] at hmag
  obtain rfl : seconds = s.x.ops := BitVec.eq_of_toNat_eq hseconds
  exact ⟨v, f, mag, hpack, hsec, hfrac, his, hmag⟩

/-- R119 backward: PACK of the seconds and the fraction of a timestamp is the timestamp. -/
theorem CodecOf.pack_unpack {N : Nat} {pack sec frac : Instr} (codec : CodecOf N pack sec frac)
    (s : State) (hs : s.accepting = true) :
    ∃ seconds f v, exec sec s = .next (setRes seconds s) ∧ exec frac s = .next (setRes f s) ∧
      exec pack { s with x := { s.x with ops := seconds, opf := f } } =
        .next (setRes v { s with x := { s.x with ops := seconds, opf := f } }) ∧
      v.toNat = s.x.opa.toNat % 2 ^ (2 * N) := by
  obtain ⟨seconds, hsec, hseconds⟩ := codec.sec_spec s hs
  obtain ⟨f, mag, hfrac, his, hmag⟩ := codec.frac_spec s hs
  have hlt : mag < f64One := by
    refine Nat.lt_of_mul_lt_mul_left (a := 2 ^ N) ?_
    rw [hmag, Nat.mul_comm]
    exact Nat.mul_lt_mul_of_pos_right (Nat.mod_lt _ (Nat.two_pow_pos N)) f64One_pos
  obtain ⟨v, hpack, hv⟩ :=
    codec.pack_spec { s with x := { s.x with ops := seconds, opf := f } } hs (his.fraction hlt)
  refine ⟨seconds, f, v, hsec, hfrac, hpack, ?_⟩
  have hdouble : 2 ^ (2 * N) = 2 ^ N * 2 ^ N := by rw [Nat.two_mul, pow_add]
  dsimp only at hv
  rw [his.mag_eq, fieldOf_of_exact N mag _ hmag, hseconds, hdouble, Nat.mod_mul_right_div_self,
    Nat.mod_mod] at hv
  rw [hv, hdouble, Nat.mod_mul]
  ring

/-- Settles O23: the two codecs are `CodecOf` their widths, so both directions hold for them. -/
theorem codecRoundTripLaw : Obligations.CodecRoundTripLaw := by
  intro row hrow s hstate
  have hs := accepting_of_mem s hstate
  have codec : CodecOf row.1 row.2.1 row.2.2.1 row.2.2.2 := by
    simp only [List.mem_cons, List.not_mem_nil, or_false] at hrow
    rcases hrow with rfl | rfl
    · exact codecOf_short
    · exact codecOf_long
  refine ⟨fun hops hfin hnonneg hlt => ?forward, ?backward⟩
  case forward =>
    obtain ⟨v, f, mag, hpack, hsec, hfrac, his, hmag⟩ :=
      codec.unpack_pack s hs hops ⟨hfin, hnonneg, hlt⟩
    obtain ⟨hle, hclose, hexact⟩ := truncated_bounds row.1 _ mag hmag
    refine ⟨_, _, _, hpack, hsec, hfrac, rfl, his.finite, his.sign, ?_⟩
    rw [setRes_x_res, his.mag_eq]
    exact ⟨hmag, hle, hclose, hexact⟩
  case backward =>
    obtain ⟨seconds, f, v, hsec, hfrac, hpack, hv⟩ := codec.pack_unpack s hs
    exact ⟨_, _, _, hsec, hfrac, hpack, hv⟩

end Sys2Proof.Machine
end

section
/-! PROOF. GETTIME rejects a zero argument (42_engine_request_validate.md R153): the check stands
between the clear and the build, and O26. -/

namespace Sys2Proof.Machine

/-- GETTIME accepted with a zero argument clears, and then fails instead of building (R153). -/
theorem execGettime_rejects (s : State) (hs : s.accepting = true)
    (hzero : s.x.t1 = 0 ∨ s.csr.timeout = 0) :
    exec .gettime s = .next (raiseFailed .invalidArgument (clearExchange s)) := by
  rw [exec_of_enabled .gettime s hs, effectOf]
  rcases startExchange_cases (clearExchange s) with ⟨-, hraise⟩ | ⟨ht, hn, -⟩
  · rw [hraise]
  · rw [clearExchange_x_t1] at ht
    rw [clearExchange_csr_timeout] at hn
    exact absurd hzero (not_or.2 ⟨ht, hn⟩)

/-- Settles O26: the failure keeps what the clear wrote, so every address reads zero, and outside the
buffers it did before. -/
theorem gettimeRejectsZeroArguments : Obligations.GettimeRejectsZeroArguments := by
  refine fun s hs hm hzero => ⟨clearBuffers s.mem, ?step, ?buffers, ?frame⟩
  case step =>
    rw [execGettime_rejects s (accepting_of_mem s hs) hzero]
    simp only [raiseFailed, reasonCode, clearExchange]
    rfl
  case buffers =>
    exact fun k _ => ⟨memRead8_clearBuffers s.mem _ hm, memRead8_clearBuffers s.mem _ hm⟩
  case frame =>
    intro a ha
    rw [memRead8_clearBuffers s.mem a hm, memRead8_outside s.mem a hm ha]

end Sys2Proof.Machine
end

section
/-! PROOF. COMPUTE (43_engine_compute_sync.md R180 to R183): what each formula is as a sequence of
binary64 operations, and O36. -/

namespace Sys2Proof.Machine

/-- `ts_to_real`'s operations on the timestamp's two halves (40_codec.md R121): two conversions, the
exact division, and the addition. -/
theorem tsToReal_eq_operations (v : Word) :
    tsToReal v =
      f64Add (u32ToF64 (v.extractLsb' 32 32)) (f64Div (u32ToF64 (v.extractLsb' 0 32)) F64_2P32) := by
  rw [tsToReal, longSeconds, longFractionReal, longFraction]

/-- The seconds between two latches: the difference modulo 2^32 (R50), converted and divided once. -/
theorem msToReal_elapsedMs (start stop : Half) :
    msToReal (elapsedMs start stop) = f64Div (u32ToF64 (stop - start)) F64_1000 := by
  rw [msToReal, elapsedMs]

/-- T4's operations (R182); T1 is the real that T1R gets. -/
theorem clientReceive_eq_operations (s : State) :
    clientReceive s =
      f64Add (tsToReal s.x.t1) (f64Div (u32ToF64 (s.csr.msrecv - s.csr.msstart)) F64_1000) := by
  rw [clientReceive, msToReal_elapsedMs]

/-- In Validated, COMPUTE's `require` holds (R180). -/
theorem exec_compute_of_validated (s : State) (hs : s.csr.state = St.validated) :
    exec .compute s = .next (computeEffect s) :=
  exec_of_enabled .compute s (beq_iff_eq.2 hs)

/-- Settles O36: the four times are `tsToReal` of the timestamps and `clientReceive`, and over them
the two formulas are `roundTripDelay` and `clockOffset`, so the state is `computeEffect`'s. -/
theorem computeFollowsTheFormulas : Obligations.ComputeFollowsTheFormulas := by
  intro s hs
  simp only [← tsToReal_eq_operations, ← clientReceive_eq_operations]
  rw [← roundTripDelay, ← clockOffset]
  exact exec_compute_of_validated s hs

end Sys2Proof.Machine
end

section
/-! PROOF. The kiss table (44_kiss.md R204): its one use in VALIDATE is the index that check e
records (42_engine_request_validate.md R165), and O34. -/

namespace Sys2Proof.Machine

/-- No condition of the six checks looks at the kiss table (R204): either every table gives the same
state, with KISSIDX kept, or every table gives the failure of check e. -/
theorem validateWith_table_cases (s : State) :
    (∃ t : State, t.csr.kissidx = s.csr.kissidx ∧ ∀ table, validateWith table s = t) ∨
      ∀ table, validateWith table s = raiseFailed .temporarilyUnavailable (recordKiss table s) := by
  unfold validateWith
  split_ifs with mode version leap stratum kiss originate
  case pos | pos | pos | pos => exact .inl ⟨_, raiseFailed_csr_kissidx _ s, fun _ => rfl⟩
  · exact .inr fun _ => rfl
  · exact .inl ⟨_, raiseFailed_csr_kissidx _ s, fun _ => rfl⟩
  · exact .inl ⟨_, loadReply_csr_kissidx s, fun _ => rfl⟩

/-- Two tables' kiss records, and the failures reported over them, differ in KISSIDX only. -/
theorem raiseFailed_recordKiss_table (r : Reason) (table₁ table₂ : List Half) (s : State) :
    raiseFailed r (recordKiss table₁ s) =
      { raiseFailed r (recordKiss table₂ s) with
        csr := { (raiseFailed r (recordKiss table₂ s)).csr with
          kissidx := kissLookupIn table₁ (replyRefId s) } } := rfl

/-- Settles O34: where every table gives one state there is nothing to compare, and in check e's
failure the table is in KISSIDX only, which is the lookup of the reply's reference id. -/
theorem kissTableDecidesNothing : Obligations.KissTableDecidesNothing := by
  intro table₁ table₂ s
  obtain ⟨t, kept, same⟩ | kissed := validateWith_table_cases s
  · rw [same table₁, same table₂]
    exact ⟨rfl, .inl kept⟩
  · rw [kissed table₁, kissed table₂, raiseFailed_csr_kissidx, recordKiss_csr_kissidx]
    exact ⟨raiseFailed_recordKiss_table _ table₁ table₂ s,
      .inr ⟨rfl, raiseFailed_csr_err _ _, raiseFailed_csr_state _ _⟩⟩

end Sys2Proof.Machine
end

section
/-! PROOF. `RN` is to nearest, ties to even (45_binary64.md R211): rounding to an integer first, then
how the finite patterns lie around a binade, where the overflow begins, and O43. -/

namespace Sys2Proof.Machine

/-! ### The nearest integer -/

/-- The rounded quotient is at most half a divisor off, and even where it is exactly half a divisor
off. -/
theorem roundHalfEven_error (num den : Nat) (hden : 0 < den) :
    2 * |(den * roundHalfEven num den : Int) - num| ≤ den ∧
      (2 * |(den * roundHalfEven num den : Int) - num| = den → roundHalfEven num den % 2 = 0) := by
  have hnum : (den * (num / den : Nat) : Int) + (num % den : Nat) = num := mod_cast
    Nat.div_add_mod num den
  have hfloor : |(den * (num / den : Nat) : Int) - num| = (num % den : Nat) := by
    rw [abs_sub_comm, ← hnum, add_sub_cancel_left, Nat.abs_cast]
  have hnext (hr : num % den ≤ den) :
      |(den * (num / den + 1 : Nat) : Int) - num| = den - (num % den : Nat) := by
    rw [Nat.cast_succ, mul_add_one, ← hnum, add_sub_add_left_eq_sub, abs_of_nonneg (by omega)]
  rw [roundHalfEven]
  split_ifs with hbelow habove
  · rw [hfloor]
    omega
  · rw [hnext (Nat.mod_lt num hden).le]
    omega
  · rcases Nat.mod_two_eq_zero_or_one (num / den) with heven | hodd
    · rw [heven, Nat.add_zero, hfloor]
      omega
    · rw [hodd, hnext (by omega)]
      omega

/-- No integer is nearer than the rounded quotient, and another is as near only where the rounded
quotient is even. -/
theorem roundHalfEven_nearest (num den : Nat) (hden : 0 < den) (n : Int) :
    |(den * roundHalfEven num den : Int) - num| ≤ |den * n - num| ∧
      (|(den * roundHalfEven num den : Int) - num| = |den * n - num| → n ≠ roundHalfEven num den →
        roundHalfEven num den % 2 = 0) := by
  rcases eq_or_ne n (roundHalfEven num den) with rfl | hne
  · exact ⟨le_rfl, fun _ hne => absurd rfl hne⟩
  obtain ⟨hhalf, htie⟩ := roundHalfEven_error num den hden
  have hapart : (den : Int) ≤ |den * n - den * roundHalfEven num den| := by
    rw [← mul_sub, abs_mul, Nat.abs_cast]
    exact le_mul_of_one_le_right (Int.natCast_nonneg den) (Int.one_le_abs (sub_ne_zero.2 hne))
  have htriangle := abs_sub_le (den * n : Int) num (den * roundHalfEven num den)
  rw [abs_sub_comm (num : Int)] at htriangle
  exact ⟨by omega, fun heq _ => htie (by omega)⟩

/-- Rounding passes an odd integer from half a step above it on, the tie included. -/
theorem lt_roundHalfEven_iff (num den m : Nat) (hden : 0 < den) (hm : m % 2 = 1) :
    m < roundHalfEven num den ↔ (2 * m + 1) * den ≤ 2 * num := by
  obtain ⟨hhalf, htie⟩ := roundHalfEven_error num den hden
  have hupper := le_abs_self ((den * roundHalfEven num den : Int) - num)
  have hlower := neg_le_abs ((den * roundHalfEven num den : Int) - num)
  rcases Nat.lt_trichotomy m (roundHalfEven num den) with hlt | heq | hgt
  · have hstep : den * (m + 1) ≤ den * roundHalfEven num den := Nat.mul_le_mul_left den hlt
    zify at hstep ⊢
    exact iff_of_true (mod_cast hlt) (by linarith)
  · refine iff_of_false (by omega) fun hle => ?_
    have hhalfStep : 2 * |(den * roundHalfEven num den : Int) - num| = den := by
      rw [← heq] at hhalf hlower ⊢
      zify at hle
      linarith
    exact absurd (htie hhalfStep) (by omega)
  · have hstep : den * (roundHalfEven num den + 1) ≤ den * m := Nat.mul_le_mul_left den hgt
    refine iff_of_false (by omega) ?_
    zify at hstep ⊢
    linarith

/-! ### The binade -/

/-- Where the binade of `num / den` units begins. -/
theorem le_rnBinade_iff (num den k : Nat) (hden : 0 < den) (hk : k ≠ 0) :
    k ≤ rnBinade num den ↔ 2 ^ 52 * (den * 2 ^ k) ≤ num := by
  rw [rnBinade, Nat.mul_left_comm, Nat.mul_comm den, ← Nat.le_div_iff_mul_le hden, ← pow_add]
  rcases Nat.eq_zero_or_pos (num / den) with hzero | hpos
  · simp [hzero, hk]
  · rw [← Nat.le_log2 hpos.ne']
    omega

theorem f64Frac_lt (p : Word) : f64Frac p < 2 ^ 52 := BitVec.isLt _

/-- A pattern lies on the grid of step `2^k`, or below the binade in which that step begins. -/
theorem f64Mag_dvd_or_lt (p : Word) (k : Nat) :
    2 ^ k ∣ f64Mag p ∨ k ≠ 0 ∧ f64Mag p < 2 ^ 52 * 2 ^ k := by
  have hfrac := f64Frac_lt p
  rw [f64Mag]
  cases k with
  | zero => simp
  | succ j =>
    split_ifs with hexp
    · exact .inr ⟨j.succ_ne_zero, hfrac.trans_le (Nat.le_mul_of_pos_right _ (by positivity))⟩
    · rcases Nat.lt_or_ge j (f64Exp p - 1) with hgrid | hbelow
      · exact .inl ((pow_dvd_pow 2 hgrid).mul_left _)
      · refine .inr ⟨j.succ_ne_zero, ?_⟩
        calc (2 ^ 52 + f64Frac p) * 2 ^ (f64Exp p - 1)
          _ < 2 ^ 53 * 2 ^ (f64Exp p - 1) := Nat.mul_lt_mul_of_pos_right (by omega) (by positivity)
          _ ≤ 2 ^ 53 * 2 ^ j := Nat.mul_le_mul_left _ (Nat.pow_le_pow_right two_pos hbelow)
          _ = 2 ^ 52 * 2 ^ (j + 1) := by ring

/-- The magnitude, in units, of the significand in its binade. -/
def rnMag (num den : Nat) : Nat := rnSignificand num den * 2 ^ rnBinade num den

/-- On the binade's grid no number is nearer than the rounded one, and another is as near only where
the significand is even. -/
theorem rnMag_nearest_of_dvd (num den : Nat) (hden : 0 < den) (u : Int)
    (hu : 2 ^ rnBinade num den ∣ u) :
    |(den * rnMag num den : Int) - num| ≤ |den * u - num| ∧
      (|(den * rnMag num den : Int) - num| = |den * u - num| → u ≠ rnMag num den →
        rnSignificand num den % 2 = 0) := by
  obtain ⟨n, rfl⟩ := hu
  have hmag : (den * rnMag num den : Int) =
      (den * 2 ^ rnBinade num den : Nat) * rnSignificand num den := by
    rw [rnMag]
    push_cast
    ring
  have hgrid : (den * (2 ^ rnBinade num den * n) : Int) =
      (den * 2 ^ rnBinade num den : Nat) * n := by
    push_cast
    ring
  obtain ⟨hle, htie⟩ := roundHalfEven_nearest num (den * 2 ^ rnBinade num den) (by positivity) n
  rw [hmag, hgrid]
  refine ⟨hle, fun heq hne => htie heq ?_⟩
  rintro rfl
  exact hne (by rw [← rnSignificand, rnMag, Nat.mul_comm]; push_cast; rfl)

/-- The same among all numbers where finite patterns can lie: below the binade they are further away
than the binade's first number, which is on the grid. -/
theorem rnMag_nearest (num den : Nat) (hden : 0 < den) (u : Int)
    (hu : 2 ^ rnBinade num den ∣ u ∨ rnBinade num den ≠ 0 ∧ u < 2 ^ 52 * 2 ^ rnBinade num den) :
    |(den * rnMag num den : Int) - num| ≤ |den * u - num| ∧
      (|(den * rnMag num den : Int) - num| = |den * u - num| → u ≠ rnMag num den →
        rnSignificand num den % 2 = 0) := by
  rcases hu with hgrid | ⟨hk, hbelow⟩
  · exact rnMag_nearest_of_dvd num den hden u hgrid
  have hfirst := (rnMag_nearest_of_dvd num den hden (2 ^ 52 * 2 ^ rnBinade num den)
    (Dvd.intro_left _ rfl)).1
  have hbegin : (den * (2 ^ 52 * 2 ^ rnBinade num den) : Int) ≤ num := by
    rw [mul_left_comm]
    exact mod_cast (le_rnBinade_iff num den _ hden hk).1 le_rfl
  have hlt : (den * u : Int) < den * (2 ^ 52 * 2 ^ rnBinade num den) :=
    Int.mul_lt_mul_of_pos_left hbelow (mod_cast hden)
  have hfurther :
      |(den * (2 ^ 52 * 2 ^ rnBinade num den) : Int) - num| < |den * u - num| := by
    rw [abs_of_nonpos (by linarith), abs_of_nonpos (by linarith)]
    linarith
  exact ⟨(hfirst.trans_lt hfurther).le, fun heq => absurd heq (hfirst.trans_lt hfurther).ne⟩

/-! ### Overflow -/

/-- `2^1024 - 2^970` is half a step beyond the largest finite value. -/
theorem overflow_units : (2 ^ 1024 - 2 ^ 970) * f64One = (2 ^ 54 - 1) * 2 ^ 2044 := by
  rw [f64One, show 1024 = 54 + 970 from rfl, show 2044 = 970 + 1074 from rfl, pow_add, pow_add,
    ← Nat.sub_one_mul, Nat.mul_assoc]

/-- The rounded value reaches `2^1024` from half a step beyond the largest finite value on. -/
theorem f64InfLow_le_iff (num den : Nat) (hden : 0 < den) :
    f64InfLow ≤ 2 ^ 52 * rnBinade num den + rnSignificand num den ↔
      (2 ^ 1024 - 2 ^ 970) * f64One * den ≤ num := by
  have htop := le_rnBinade_iff num den 2045 hden (by omega)
  have hbeyond := le_rnBinade_iff num den 2046 hden (by omega)
  have hround := lt_roundHalfEven_iff num (den * 2 ^ 2045) (2 ^ 53 - 1) (by positivity) rfl
  have hle := rnSignificand_le num den
  have hlead := le_rnSignificand num den
  have hhalf : den * 2 ^ 2045 = 2 * (den * 2 ^ 2044) := by
    rw [show 2045 = 2044 + 1 from rfl, pow_succ', Nat.mul_left_comm]
  have hdouble : den * 2 ^ 2046 = 2 * (den * 2 ^ 2045) := by
    rw [show 2046 = 2045 + 1 from rfl, pow_succ', Nat.mul_left_comm]
  rw [overflow_units, f64InfLow, Nat.mul_assoc, Nat.mul_comm _ den]
  rcases Nat.lt_trichotomy (rnBinade num den) 2045 with hbelow | heq | habove
  · exact iff_of_false (by omega) (by omega)
  · have hsig : rnSignificand num den = roundHalfEven num (den * 2 ^ 2045) := by
      rw [rnSignificand, heq]
    rw [heq, hsig]
    omega
  · exact iff_of_true (by omega) (by omega)

/-- The result is the infinity from half a step beyond the largest finite value on; short of that it
has the rounded significand's magnitude, and its parity in the fraction. -/
theorem f64RN_cases (neg : Bool) (num den : Nat) (hden : 0 < den) :
    (f64RN neg num den = f64Inf neg ∧ (2 ^ 1024 - 2 ^ 970) * f64One * den ≤ num) ∨
      (F64Is (f64RN neg num den) neg (rnMag num den) ∧
        f64Frac (f64RN neg num den) % 2 = rnSignificand num den % 2 ∧
        num < (2 ^ 1024 - 2 ^ 970) * f64One * den) := by
  rw [← f64InfLow_le_iff num den hden, ← Nat.not_le, ← f64InfLow_le_iff num den hden, Nat.not_le]
  rcases Nat.lt_or_ge (2 ^ 52 * rnBinade num den + rnSignificand num den) f64InfLow with hfit | hover
  · refine .inr ⟨f64RN_is neg num den hfit, ?_, hfit⟩
    rw [f64RN, rnLow_eq, min_eq_left hfit.le, f64Frac_f64Of]
    · omega
    · exact hfit.trans (by norm_num [f64InfLow])
  · refine .inl ⟨?_, hover⟩
    rw [f64RN, rnLow_eq, min_eq_right hover, f64Inf]

/-! ### The sign -/

/-- `x` with sign `neg`. -/
def withSign (neg : Bool) (x : Int) : Int := if neg then -x else x

theorem f64Units_eq_withSign (p : Word) : f64Units p = withSign (f64Sign p) (f64Mag p) := rfl

theorem withSign_withSign (neg : Bool) (x : Int) : withSign neg (withSign neg x) = x := by
  cases neg with
  | false => rfl
  | true => exact neg_neg x

theorem abs_withSign (neg : Bool) (x : Int) : |withSign neg x| = |x| := by
  cases neg with
  | false => rfl
  | true => exact abs_neg x

/-- A sign moves from one end of a distance to the other. -/
theorem abs_mul_sub_withSign (neg : Bool) (den x y : Int) :
    |den * x - withSign neg y| = |den * withSign neg x - y| := by
  cases neg with
  | false => rfl
  | true =>
    rw [withSign, withSign, if_pos rfl, if_pos rfl, ← abs_neg, neg_sub, mul_neg, sub_eq_add_neg,
      add_comm, sub_eq_add_neg]

/-- With either sign a pattern lies on the grid of step `2^k`, or below the binade in which that step
begins. -/
theorem f64Units_dvd_or_lt (neg : Bool) (p : Word) (k : Nat) :
    2 ^ k ∣ withSign neg (f64Units p) ∨ k ≠ 0 ∧ withSign neg (f64Units p) < 2 ^ 52 * 2 ^ k := by
  have habs : |withSign neg (f64Units p)| = f64Mag p := by
    rw [abs_withSign, f64Units_eq_withSign, abs_withSign, Nat.abs_cast]
  rcases f64Mag_dvd_or_lt p k with hgrid | ⟨hk, hbelow⟩
  · left
    rw [← dvd_abs, habs]
    exact mod_cast hgrid
  · exact .inr ⟨hk, (le_abs_self _).trans_lt (habs ▸ mod_cast hbelow)⟩

/-- Settles O43: with the sign moved from `r` to the patterns, the distances are the ones of
`rnMag_nearest`; and `f64RN_cases` says when the result overflows. -/
theorem roundingIsToNearestEven : Obligations.RoundingIsToNearestEven := by
  intro neg num den hden
  dsimp only
  rcases f64RN_cases neg num den hden with ⟨hinf, hover⟩ | ⟨his, hparity, hfit⟩
  · have hnot : f64Finite (f64Inf neg) = false := by cases neg <;> rfl
    have hsign : f64Sign (f64Inf neg) = neg := by cases neg <;> rfl
    rw [hinf, hnot, hsign]
    exact ⟨nofun, iff_of_true rfl hover, fun _ => rfl, rfl⟩
  · have hnot : ¬ f64Finite (f64RN neg num den) = false := by simp [his.finite]
    refine ⟨fun _ q _ => ?_, iff_of_false hnot hfit.not_ge, fun h => absurd h hnot, his.sign⟩
    obtain ⟨hle, htie⟩ := rnMag_nearest num den hden _ (f64Units_dvd_or_lt neg q _)
    have hunits : withSign neg (f64Units (f64RN neg num den)) = rnMag num den := by
      rw [f64Units_eq_withSign, his.sign, his.mag_eq, withSign_withSign]
    rw [← withSign, abs_mul_sub_withSign, abs_mul_sub_withSign, hunits, hparity]
    refine ⟨hle, fun heq hne => htie heq fun h => hne ?_⟩
    rw [← withSign_withSign neg (f64Units q), h, ← hunits, withSign_withSign]

end Sys2Proof.Machine
end

section
/-! PROOF. Bus words (30_encoding.md R80, R85, R86): a word is its three fields, decoding and
encoding agree, and what makes a word a command: O3 and O4. -/

namespace Sys2Proof

/-! ### The fields of a bus word -/

@[simp] theorem busKind_append (kind : Byte) (addr : Addr) (data : Word) :
    busKind (kind ++ addr ++ data : BitVec 80) = kind := by
  rw [busKind, BitVec.extractLsb'_append_eq_of_le (by decide)]
  exact BitVec.extractLsb'_append_eq_left

@[simp] theorem busAddr_append (kind : Byte) (addr : Addr) (data : Word) :
    busAddr (kind ++ addr ++ data : BitVec 80) = addr := by
  rw [busAddr, BitVec.extractLsb'_append_eq_of_le (by decide)]
  exact BitVec.extractLsb'_append_eq_right

@[simp] theorem busData_append (kind : Byte) (addr : Addr) (data : Word) :
    busData (kind ++ addr ++ data : BitVec 80) = data :=
  BitVec.extractLsb'_append_eq_right

/-- A bus word is its kind, its address and its data, and nothing else. -/
theorem busWord_eq_append (w : BusWord) : busKind w ++ busAddr w ++ busData w = w := by
  have hhigh : busKind w ++ busAddr w = w.extractLsb' 64 16 :=
    BitVec.extractLsb'_append_extractLsb'_eq_extractLsb' rfl
  have hall : w.extractLsb' 64 16 ++ busData w = w.extractLsb' 0 80 :=
    BitVec.extractLsb'_append_extractLsb'_eq_extractLsb' rfl
  rw [hhigh, hall]
  exact BitVec.extractLsb'_eq_self

/-- Two words of fields are equal exactly when the fields are. -/
theorem busWord_append_inj (kind kind' : Byte) (addr addr' : Addr) (data data' : Word) :
    (kind ++ addr ++ data : BitVec 80) = kind' ++ addr' ++ data' ↔
      kind = kind' ∧ addr = addr' ∧ data = data' := by
  refine ⟨fun h => ⟨?_, ?_, ?_⟩, by rintro ⟨rfl, rfl, rfl⟩; rfl⟩
  · simpa using congrArg busKind h
  · simpa using congrArg busAddr h
  · simpa using congrArg busData h

/-! ### Decoding a bus word -/

theorem decodeBusWord_read_iff (w : BusWord) (a : Addr) :
    decodeBusWord w = .ok (.read a) ↔ busKind w = 0x00#8 ∧ busAddr w = a := by
  unfold decodeBusWord
  split_ifs with hread hwrite <;> simp_all

theorem decodeBusWord_write_iff (w : BusWord) (a : Addr) (d : Word) :
    decodeBusWord w = .ok (.write a d) ↔ busKind w = 0x01#8 ∧ busAddr w = a ∧ busData w = d := by
  unfold decodeBusWord
  split_ifs with hread hwrite <;> simp_all

/-- A word decodes exactly when its kind is READ's or WRITE's. -/
theorem decodeBusWord_isOk_iff (w : BusWord) :
    (∃ t, decodeBusWord w = .ok t) ↔ busKind w = 0x00#8 ∨ busKind w = 0x01#8 := by
  unfold decodeBusWord
  split_ifs with hread hwrite <;> simp_all

/-- What does not decode is rejected by its kind, which is neither READ's nor WRITE's. -/
theorem decodeBusWord_error (w : BusWord) (r : Reject) (h : decodeBusWord w = .error r) :
    busKind w ≠ 0x00#8 ∧ busKind w ≠ 0x01#8 := by
  rw [← not_or, ← decodeBusWord_isOk_iff, h]
  rintro ⟨t, ht⟩
  cases ht

/-! ### Decoding and encoding agree (R80) -/

theorem wellFormed_iff (w : BusWord) :
    BusWord.wellFormed w = true ↔ (busKind w = 0x00#8 ∧ busData w = 0#64) ∨ busKind w = 0x01#8 := by
  simp [BusWord.wellFormed, busKind, busData]

theorem wellFormed_encodeTransaction (t : Transaction) :
    BusWord.wellFormed (encodeTransaction t) = true := by
  rw [wellFormed_iff]
  cases t with
  | read a => exact .inl ⟨busKind_append _ a _, busData_append _ a _⟩
  | write a d => exact .inr (busKind_append _ a d)

theorem decodeBusWord_encodeTransaction (t : Transaction) :
    decodeBusWord (encodeTransaction t) = .ok t := by
  cases t with
  | read a => exact (decodeBusWord_read_iff _ a).2 ⟨busKind_append _ a _, busAddr_append _ a _⟩
  | write a d =>
    exact (decodeBusWord_write_iff _ a d).2
      ⟨busKind_append _ a d, busAddr_append _ a d, busData_append _ a d⟩

/-- The transaction a well-formed word decodes to has all of the word's fields. -/
theorem encodeTransaction_decodeBusWord (w : BusWord) (h : BusWord.wellFormed w = true) :
    ∃ t, decodeBusWord w = .ok t ∧ encodeTransaction t = w := by
  rcases (wellFormed_iff w).1 h with ⟨hkind, hdata⟩ | hkind
  · refine ⟨.read (busAddr w), (decodeBusWord_read_iff w _).2 ⟨hkind, rfl⟩, ?_⟩
    rw [encodeTransaction, ← hkind, ← hdata, busWord_eq_append]
  · refine ⟨.write (busAddr w) (busData w), (decodeBusWord_write_iff w _ _).2 ⟨hkind, rfl, rfl⟩, ?_⟩
    rw [encodeTransaction, ← hkind, busWord_eq_append]

/-- Settles O3: a word is its three fields, and each kind's decoder and encoder use the same
ones. -/
theorem busWordDecodeEncodeAgree : Obligations.BusWordDecodeEncodeAgree :=
  ⟨fun t => ⟨wellFormed_encodeTransaction t, decodeBusWord_encodeTransaction t⟩,
    encodeTransaction_decodeBusWord, decodeBusWord_isOk_iff⟩

/-! ### What makes a word a command (R85, R86) -/

/-- A command byte is the instruction's code. -/
theorem decodeCommand_eq_ok_iff (c : Byte) (i : Instr) :
    decodeCommand c = .ok i ↔ encode i = .command c := by
  rw [commandMapIsExact c i]
  cases i <;> simp [encode, commandOfFields, @eq_comm _ c]

/-- Only a WRITE to CMD issues a command, the one its low byte decodes to. -/
theorem issues_command_iff (w : BusWord) (i : Instr) :
    (∃ t, decodeBusWord w = .ok t ∧ decodeTransaction t = some i) ↔
      busKind w = 0x01#8 ∧ busAddr w = cmdAddr ∧
        decodeCommand (commandByte (busData w)) = .ok i := by
  constructor
  · rintro ⟨_ | ⟨a, d⟩, hword, hissue⟩
    · cases hissue
    · obtain ⟨hkind, rfl, rfl⟩ := (decodeBusWord_write_iff w a d).1 hword
      rw [decodeTransaction] at hissue
      split at hissue
      · next haddr =>
        refine ⟨hkind, haddr, ?_⟩
        cases hd : decodeCommand (commandByte (busData w)) <;> simp_all [Except.toOption]
      · cases hissue
  · rintro ⟨hkind, haddr, hcommand⟩
    refine ⟨_, (decodeBusWord_write_iff w _ _).2 ⟨hkind, rfl, rfl⟩, ?_⟩
    rw [decodeTransaction, if_pos haddr, hcommand]
    rfl

/-- The low byte of a word, kept by the mask `0xFF`, is the command byte. -/
theorem and_low_byte_iff (d : Word) (c : Byte) :
    d &&& 0xFF#64 = c.setWidth 64 ↔ commandByte d = c := by
  have hmask : (d &&& 0xFF#64).toNat = d.toNat % 2 ^ 8 := by
    rw [BitVec.toNat_and]
    exact Nat.and_two_pow_sub_one_eq_mod d.toNat 8
  rw [← BitVec.toNat_inj, ← BitVec.toNat_inj, hmask, BitVec.toNat_setWidth_of_le (by decide),
    commandByte, BitVec.extractLsb'_toNat, Nat.shiftRight_zero]

/-- The mask keeps the kind, the address and the low data byte. -/
theorem masked_busWord (w : BusWord) :
    w &&& 0xFFFF00000000000000FF#80 = busKind w ++ busAddr w ++ (busData w &&& 0xFF#64) := by
  calc w &&& 0xFFFF00000000000000FF#80
      = (busKind w ++ busAddr w ++ busData w) &&& (BitVec.allOnes 16 ++ 0xFF#64) := by
        rw [busWord_eq_append]
        rfl
    _ = ((busKind w ++ busAddr w) &&& BitVec.allOnes 16) ++ (busData w &&& 0xFF#64) :=
        BitVec.and_append
    _ = busKind w ++ busAddr w ++ (busData w &&& 0xFF#64) := by rw [BitVec.and_allOnes]

/-- The row's word has kind 0x01, the address of CMD and the command byte. -/
theorem commandRow_eq_append (c : Byte) :
    0x011F0000000000000000#80 ||| c.setWidth 80 = 0x01#8 ++ cmdAddr ++ c.setWidth 64 := by
  revert c
  decide

/-- Settles O4: by fields, the masked word is the row's exactly when the word is a WRITE to CMD
whose low byte is the instruction's code. -/
theorem commandWordIgnoresHighData : Obligations.CommandWordIgnoresHighData := by
  intro w i
  rw [issues_command_iff]
  simp only [masked_busWord, commandRow_eq_append, busWord_append_inj, and_low_byte_iff,
    decodeCommand_eq_ok_iff]
  constructor
  · rintro ⟨hkind, haddr, hcode⟩
    exact ⟨_, hcode, hkind, haddr, rfl⟩
  · rintro ⟨c, hcode, hkind, haddr, rfl⟩
    exact ⟨hkind, haddr, hcode⟩

end Sys2Proof
end

section
/-! PROOF. What one step can do to the block: the agents' turns (Laws/Ops.lean) sorted by what they
change of the registers, the CSRs and the memory. An invariant speaks of these three only, so it is
kept by every step if it is kept by the moves listed in `KeptByMoves`. -/

namespace Sys2Proof.Machine

/-! ### The codes of STATE as numerals (10_state.md R25) -/

@[simp] theorem St.idle_eq : St.idle = 0#3 := rfl
@[simp] theorem St.requestBuilt_eq : St.requestBuilt = 1#3 := rfl
@[simp] theorem St.awaiting_eq : St.awaiting = 2#3 := rfl
@[simp] theorem St.validated_eq : St.validated = 3#3 := rfl
@[simp] theorem St.offsetComputed_eq : St.offsetComputed = 4#3 := rfl
@[simp] theorem St.done_eq : St.done = 5#3 := rfl
@[simp] theorem St.failed_eq : St.failed = 6#3 := rfl

/-! ### What a move keeps -/

/-- The registers, the CSRs and the memory are the same: what changed is outside the block. -/
structure SameBlock (s t : State) : Prop where
  x : t.x = s.x
  csr : t.csr = s.csr
  mem : t.mem = s.mem

theorem SameBlock.refl (s : State) : SameBlock s s := ⟨rfl, rfl, rfl⟩

theorem SameBlock.trans {s t u : State} (h : SameBlock s t) (h' : SameBlock t u) : SameBlock s u :=
  ⟨h'.x.trans h.x, h'.csr.trans h.csr, h'.mem.trans h.mem⟩

theorem SameBlock.accepting {s t : State} (h : SameBlock s t) : t.accepting = s.accepting := by
  rw [State.accepting, h.csr, State.accepting]

theorem sameBlock_popTurn (s : State) : SameBlock s (popTurn s) :=
  ⟨popTurn_x s, popTurn_csr s, popTurn_mem s⟩

theorem sameBlock_handOver (s : State) : SameBlock s (handOver s) :=
  ⟨handOver_x s, handOver_csr s, handOver_mem s⟩

theorem sameBlock_consumeRx (s : State) : SameBlock s (consumeRx s) :=
  ⟨consumeRx_x s, consumeRx_csr s, consumeRx_mem s⟩

/-- Only what the host's stores and the codec's commands write has changed: OPA, OPS, OPF, RES, T1
and TIMEOUT. -/
structure HostChange (s t : State) : Prop where
  mem : t.mem = s.mem
  csr : t.csr = { s.csr with timeout := t.csr.timeout }
  x : t.x = { s.x with
    opa := t.x.opa, ops := t.x.ops, opf := t.x.opf, res := t.x.res, t1 := t.x.t1 }

theorem HostChange.of_same {s u t : State} (hsame : SameBlock s u) (h : HostChange u t) :
    HostChange s t := by
  refine ⟨h.mem.trans hsame.mem, ?_, ?_⟩
  · rw [← hsame.csr]; exact h.csr
  · rw [← hsame.x]; exact h.x

/-- The written registers as values, for rewriting. -/
theorem HostChange.fields {s t : State} (h : HostChange s t) :
    ∃ opa ops opf res t1 timeout, t.mem = s.mem ∧ t.csr = { s.csr with timeout := timeout } ∧
      t.x = { s.x with opa := opa, ops := ops, opf := opf, res := res, t1 := t1 } :=
  ⟨_, _, _, _, _, _, h.mem, h.csr, h.x⟩

/-! ### The host's commands and stores -/

theorem hostChange_setRes (v : Word) (s : State) : HostChange s (setRes v s) := ⟨rfl, rfl, rfl⟩

theorem hostChange_countFree (p : Word) (n : Nat) (s t : State) (h : HostChange s t) :
    HostChange s (countFree p n t) := by
  refine ⟨?_, ?_, ?_⟩
  · rw [countFree_mem, h.mem]
  · rw [countFree_csr]; exact h.csr
  · rw [countFree_x]; exact h.x

theorem hostChange_hostStore (a : Addr) (d : Word) (s : State) :
    HostChange s (hostStore a d s) := by
  unfold hostStore
  split <;> exact ⟨rfl, rfl, rfl⟩

/-- Every command but GETTIME writes RES only (40_codec.md R110, 44_kiss.md R203). -/
theorem hostChange_effectOf (i : Instr) (s : State) (hi : i.isEngineStep = false)
    (hne : i ≠ .gettime) : HostChange s (effectOf i s) := by
  cases i with
  | sec32 | sec64 | frac32 | frac64 | kisslk => exact hostChange_setRes _ s
  | pack32 | pack64 => exact hostChange_countFree _ _ _ _ (hostChange_setRes _ s)
  | gettime => exact absurd rfl hne
  | send | poll | validate | compute | sync | wake => cases hi

theorem isEngineStep_of_decodeCommand (c : Byte) (i : Instr) (h : decodeCommand c = .ok i) :
    i.isEngineStep = false := by
  rw [decodeCommand_eq_ok_iff] at h
  cases i with
  | sec32 | sec64 | frac32 | frac64 | pack32 | pack64 | kisslk | gettime => rfl
  | send | poll | validate | compute | sync | wake => cases h

/-- A command is enabled where the block accepts writes (10_state.md R47). -/
theorem enabled_of_command (i : Instr) (s : State) (hi : i.isEngineStep = false) :
    enabled i s = s.accepting := by
  cases i with
  | sec32 | sec64 | frac32 | frac64 | pack32 | pack64 | kisslk | gettime => rfl
  | send | poll | validate | compute | sync | wake => cases hi

theorem isEngineStep_of_decodeSelector (sel : BitVec 5) (i : Instr)
    (h : decodeSelector sel = .ok i) : i.isEngineStep = true := by
  have hsteps : ∀ row ∈ stepMap, row.1.isEngineStep = true := by decide
  obtain ⟨row, hrow, rfl, -⟩ := (decodeSelector_eq_ok_iff sel i).1 h
  exact hsteps row hrow

/-- GETTIME's byte is 0x10 (30_encoding.md R86). -/
theorem decodeCommand_gettime (c : Byte) (h : decodeCommand c = .ok .gettime) : c = 0x10#8 := by
  rw [decodeCommand_eq_ok_iff] at h
  cases h
  rfl

/-! ### The engine's moves -/

/-- An empty poll counted and its time latched (41_transport.md R136). -/
def countPoll (s : State) : State :=
  { s with csr := { s.csr with pollcnt := s.csr.pollcnt + 1, mspoll := s.env.ms } }

@[simp] theorem countPoll_x (s : State) : (countPoll s).x = s.x := rfl
@[simp] theorem countPoll_mem (s : State) : (countPoll s).mem = s.mem := rfl
@[simp] theorem countPoll_csr (s : State) : (countPoll s).csr =
    { s.csr with pollcnt := s.csr.pollcnt + 1, mspoll := s.env.ms } := rfl

/-- An empty poll that uses up the budget fails, another only counts. -/
theorem pollEmpty_eq (s : State) :
    pollEmpty s = if s.csr.pollcnt + 1 = s.csr.timeout
      then raiseFailed .protocolMismatch (countPoll s) else countPoll s := rfl

@[simp] theorem syncWith_x (l : Word) (s : State) : (syncWith l s).x =
    { s.x with
      corr := correctedTime s.x.offset l (elapsedMs s.csr.mscomp s.env.ms)
      time := (wholeSeconds (correctedTime s.x.offset l (elapsedMs s.csr.mscomp s.env.ms))
        ((Config.freeValue s.freeCount).setWidth 32)).setWidth 64 } := by
  rw [syncWith, countFree_x]

@[simp] theorem syncWith_csr (l : Word) (s : State) : (syncWith l s).csr =
    { s.csr with
      sleepms := sleepLength (correctedTime s.x.offset l (elapsedMs s.csr.mscomp s.env.ms))
        ((Config.freeValue (s.freeCount + 1)).setWidth 32)
      mssync := s.env.ms, synced := true } := by
  rw [syncWith, countFree_csr]

@[simp] theorem syncWith_mem (l : Word) (s : State) : (syncWith l s).mem = s.mem := by
  rw [syncWith, countFree_mem]

/-- What an engine step does to the block where it is enabled: SEND, POLL, VALIDATE, COMPUTE, SYNC
and WAKE by their outcomes. -/
inductive EngineMove (s : State) : State → Prop where
  /-- SEND hands the request over (41_transport.md R131). -/
  | sent (hstate : s.csr.state = 1) : EngineMove s (setState St.awaiting s)
  /-- SEND or POLL fails (41_transport.md R130, R138), or one of VALIDATE's checks but e. -/
  | failed (r : Reason) (hstate : s.csr.state = 1 ∨ s.csr.state = 2)
      (hr : r ≠ .temporarilyUnavailable) : EngineMove s (raiseFailed r s)
  /-- POLL finds nothing and polls are left (R136). -/
  | emptyPoll (hstate : s.csr.state = 2) (hrx : s.csr.rxvalid = false)
      (hleft : s.csr.pollcnt + 1 ≠ s.csr.timeout) : EngineMove s (countPoll s)
  /-- POLL finds nothing and the budget is used up (R136). -/
  | budgetUsed (hstate : s.csr.state = 2) (hrx : s.csr.rxvalid = false)
      (hused : s.csr.pollcnt + 1 = s.csr.timeout) :
      EngineMove s (raiseFailed .protocolMismatch (countPoll s))
  /-- POLL accepts a reply (R137). -/
  | accepted (bytes : List Byte) (hstate : s.csr.state = 2) (hrx : s.csr.rxvalid = false)
      (hlong : Config.pktLen ≤ bytes.length) : EngineMove s (pollAccept bytes s)
  /-- VALIDATE's check e fails (42_engine_request_validate.md R165). -/
  | kissed (hstate : s.csr.state = 2) (hrx : s.csr.rxvalid = true) :
      EngineMove s (raiseFailed .temporarilyUnavailable (recordKiss kissTable s))
  /-- VALIDATE's checks pass (R160). -/
  | loaded (hstate : s.csr.state = 2) (hrx : s.csr.rxvalid = true) : EngineMove s (loadReply s)
  /-- COMPUTE (43_engine_compute_sync.md R180). -/
  | computed (hstate : s.csr.state = 3) : EngineMove s (computeEffect s)
  /-- SYNC (R185). -/
  | synced (hstate : s.csr.state = 4) (hsynced : s.csr.synced = false) :
      EngineMove s (syncWith (localClockTerm s) s)
  /-- WAKE (R190). -/
  | woken (hstate : s.csr.state = 4) (hsynced : s.csr.synced = true) :
      EngineMove s (setState St.done s)

theorem pollEnabled_iff (s : State) : pollEnabled s = true ↔
    s.csr.state = 2 ∧ s.csr.rxvalid = false ∧ (s.csr.pollcnt = 0 ∨ s.env.ms ≠ s.csr.mspoll) := by
  have hpast : 1 ≤ (elapsedMs s.csr.mspoll s.env.ms).toNat ↔ s.env.ms ≠ s.csr.mspoll := by
    rw [elapsedMs, Nat.one_le_iff_ne_zero, ne_eq, ne_eq, ← BitVec.toNat_inj, BitVec.toNat_sub]
    omega
  rw [← hpast]
  simp [pollEnabled, and_assoc]

theorem wakeEnabled_iff (s : State) : wakeEnabled s = true ↔
    s.csr.state = 4 ∧ s.csr.synced = true ∧
      s.csr.sleepms.toNat ≤ (elapsedMs s.csr.mssync s.env.ms).toNat := by
  simp [wakeEnabled, and_assoc]

theorem engineMove_send (s : State) (hstate : s.csr.state = 1) :
    ∃ u, SameBlock s u ∧ EngineMove u (effectOf .send s) := by
  have hover : (handOver s).csr.state = 1 := by rw [handOver_csr, hstate]
  rw [effectOf]
  split
  · rcases sendOutcome_cases s with hsent | ⟨r, hr, hfailed⟩
    · rw [hsent]
      exact ⟨_, sameBlock_handOver s, .sent hover⟩
    · rw [hfailed]
      exact ⟨_, sameBlock_handOver s, .failed r (.inl hover) (by rintro rfl; simp at hr)⟩
  · exact ⟨s, .refl s, .failed _ (.inl hstate) nofun⟩

theorem engineMove_pollEmpty (s : State) (hstate : s.csr.state = 2)
    (hrx : s.csr.rxvalid = false) : EngineMove s (pollEmpty s) := by
  rw [pollEmpty_eq]
  split
  · next hused => exact .budgetUsed hstate hrx hused
  · next hleft => exact .emptyPoll hstate hrx hleft

theorem engineMove_poll (s : State) (hstate : s.csr.state = 2) (hrx : s.csr.rxvalid = false) :
    ∃ u, SameBlock s u ∧ EngineMove u (effectOf .poll s) := by
  have hstate' : (consumeRx s).csr.state = 2 := by rw [consumeRx_csr, hstate]
  have hrx' : (consumeRx s).csr.rxvalid = false := by rw [consumeRx_csr, hrx]
  rw [effectOf]
  obtain ⟨-, h⟩ | ⟨-, h⟩ | ⟨bytes, -, -, -, h⟩ | ⟨bytes, -, hlong, h⟩ := pollOutcome_cases s
  · rw [h]
    exact ⟨s, .refl s, engineMove_pollEmpty s hstate hrx⟩
  · rw [h]
    exact ⟨_, sameBlock_consumeRx s, engineMove_pollEmpty _ hstate' hrx'⟩
  · rw [h]
    exact ⟨_, sameBlock_consumeRx s, .failed _ (.inr hstate') nofun⟩
  · rw [h]
    exact ⟨_, sameBlock_consumeRx s, .accepted bytes hstate' hrx' hlong⟩

theorem engineMove_validate (s : State) (hstate : s.csr.state = 2) (hrx : s.csr.rxvalid = true) :
    EngineMove s (effectOf .validate s) := by
  rw [effectOf]
  obtain ⟨r, hr, h⟩ | ⟨-, h⟩ | ⟨-, h⟩ := validateWith_cases kissTable s
  · rw [h]
    exact .failed r (.inr hstate) (by rintro rfl; simp at hr)
  · rw [h]
    exact .kissed hstate hrx
  · rw [h]
    exact .loaded hstate hrx

/-- Every enabled engine step is one of the engine's moves. -/
theorem engineMove_of_enabled (i : Instr) (s : State) (hi : i.isEngineStep = true)
    (h : enabled i s = true) : ∃ u, SameBlock s u ∧ EngineMove u (effectOf i s) := by
  cases i with
  | sec32 | sec64 | frac32 | frac64 | pack32 | pack64 | kisslk | gettime => cases hi
  | send => exact engineMove_send s (by simpa [enabled] using h)
  | poll =>
    obtain ⟨hstate, hrx, -⟩ := (pollEnabled_iff s).1 h
    exact engineMove_poll s hstate hrx
  | validate =>
    obtain ⟨hstate, hrx⟩ : s.csr.state = 2 ∧ s.csr.rxvalid = true := by simpa [enabled] using h
    exact ⟨s, .refl s, engineMove_validate s hstate hrx⟩
  | compute => exact ⟨s, .refl s, .computed (by simpa [enabled] using h)⟩
  | sync =>
    obtain ⟨hstate, hsynced⟩ : s.csr.state = 4 ∧ s.csr.synced = false := by
      simpa [enabled] using h
    exact ⟨s, .refl s, .synced hstate hsynced⟩
  | wake =>
    obtain ⟨hstate, hsynced, -⟩ := (wakeEnabled_iff s).1 h
    exact ⟨s, .refl s, .woken hstate hsynced⟩

/-! ### The step's moves -/

/-- An accepted write runs GETTIME, or writes what the host's stores and the codec write. -/
theorem acceptWrite_moves (a : Addr) (d : Word) (s t : State) (hs : s.accepting = true)
    (h : acceptWrite a d s = .next t) :
    HostChange s t ∨
      (a = cmdAddr ∧ commandByte d = 0x10#8 ∧ t = startExchange (clearExchange s)) := by
  obtain ⟨ha, i, hi, hexec⟩ | ⟨-, -, rfl⟩ | ⟨-, rfl⟩ := acceptWrite_cases a d s t h
  · have hcommand := isEngineStep_of_decodeCommand _ i hi
    have henabled := (enabled_of_command i s hcommand).trans hs
    rw [exec_of_enabled i s henabled, Host.Outcome.next.injEq] at hexec
    subst hexec
    by_cases hne : i = .gettime
    · subst hne
      exact .inr ⟨ha, decodeCommand_gettime _ hi, rfl⟩
    · exact .inl (hostChange_effectOf i s hcommand hne)
  · exact .inl ⟨rfl, rfl, rfl⟩
  · exact .inl (hostChange_hostStore a d s)

/-- The host's oldest transaction is a GETTIME. -/
def GettimeIsOldest (s : State) : Prop :=
  ∃ w rest d, s.host.queue = w :: rest ∧ decodeBusWord w = .ok (.write cmdAddr d) ∧
    commandByte d = 0x10#8

/-- Everything a step can do to the block, and in whose turn. -/
theorem step_moves (s t : State) (h : step s = .next t) :
    SameBlock s t ∨
    (upcomingTurn s = .reset ∧ SameBlock State.reset t) ∨
    (upcomingTurn s = .bus ∧ s.accepting = true ∧ HostChange s t) ∨
    (upcomingTurn s = .bus ∧ s.accepting = true ∧ GettimeIsOldest s ∧
      ∃ u, SameBlock s u ∧ t = startExchange (clearExchange u)) ∨
    (upcomingTurn s = .engine ∧ ∃ u, SameBlock s u ∧ EngineMove u t) := by
  have hpop := sameBlock_popTurn s
  obtain ⟨w, -, -, rfl⟩ | ⟨hturn, hbus⟩ | ⟨hturn, hengine⟩ | ⟨n, st, rx, -, rfl⟩ | ⟨-, rfl⟩ |
    ⟨hturn, rfl⟩ := step_cases s t h
  · exact .inl ⟨hpop.x, hpop.csr, hpop.mem⟩
  · obtain ⟨-, rfl⟩ | ⟨w, rest, a, -, -, rfl⟩ | ⟨w, rest, a, d, -, -, -, rfl⟩ |
      ⟨w, rest, a, d, hqueue, hword, hacc, hwrite⟩ := busTurn_cases _ t hbus
    · exact .inl hpop
    · exact .inl ⟨hpop.x, hpop.csr, hpop.mem⟩
    · exact .inl hpop
    · have hqueued : SameBlock s
          { popTurn s with host := { (popTurn s).host with queue := rest } } :=
        ⟨hpop.x, hpop.csr, hpop.mem⟩
      have hs : s.accepting = true := by rwa [popTurn_accepting] at hacc
      rcases acceptWrite_moves a d _ t (hqueued.accepting.trans hs) hwrite with
        hchange | ⟨rfl, hbyte, rfl⟩
      · exact .inr (.inr (.inl ⟨hturn, hs, .of_same hqueued hchange⟩))
      · rw [popTurn_host] at hqueue
        exact .inr (.inr (.inr (.inl
          ⟨hturn, hs, ⟨w, rest, d, hqueue, hword, hbyte⟩, _, hqueued, rfl⟩)))
  · obtain ⟨i, hi, hexec⟩ | ⟨-, rfl⟩ := engineTurn_cases _ t hengine
    · rw [exec_eq, Host.Outcome.next.injEq] at hexec
      split at hexec
      · next henabled =>
        obtain ⟨u, hu, hmove⟩ :=
          engineMove_of_enabled i _ (isEngineStep_of_decodeSelector _ i hi) henabled
        exact .inr (.inr (.inr (.inr ⟨hturn, u, hpop.trans hu, hexec ▸ hmove⟩)))
      · exact .inl (hexec ▸ hpop)
    · exact .inl hpop
  · exact .inl ⟨hpop.x, hpop.csr, hpop.mem⟩
  · exact .inl ⟨hpop.x, hpop.csr, hpop.mem⟩
  · exact .inr (.inl ⟨hturn, applyReset_x _, applyReset_csr _, applyReset_mem _⟩)

/-! ### Invariants -/

/-- `P` holds after reset and every move keeps it; `P` looks at the block only. -/
structure KeptByMoves (P : State → Prop) : Prop where
  same : ∀ s t, SameBlock s t → P s → P t
  reset : P State.reset
  host : ∀ s t, s.accepting = true → HostChange s t → P s → P t
  rejected : ∀ s, s.accepting = true → P s → P (raiseFailed .invalidArgument (clearExchange s))
  built : ∀ s, s.accepting = true → s.x.t1 ≠ 0 → s.csr.timeout ≠ 0 → P s →
    P (buildRequest (clearExchange s))
  engine : ∀ s t, EngineMove s t → P s → P t

/-- What every move keeps, every step keeps. -/
theorem KeptByMoves.step {P : State → Prop} (hP : KeptByMoves P) (s t : State) (hs : P s)
    (h : step s = .next t) : P t := by
  obtain hsame | ⟨-, hreset⟩ | ⟨-, hacc, hchange⟩ | ⟨-, hacc, -, u, hu, rfl⟩ | ⟨-, u, hu, hmove⟩ :=
    step_moves s t h
  · exact hP.same s t hsame hs
  · exact hP.same _ t hreset hP.reset
  · exact hP.host s t hacc hchange hs
  · have hacc' := hu.accepting.trans hacc
    have hPu := hP.same s u hu hs
    obtain ⟨-, h⟩ | ⟨ht, hn, h⟩ := startExchange_cases (clearExchange u)
    · rw [h]
      exact hP.rejected u hacc' hPu
    · rw [clearExchange_x_t1] at ht
      rw [clearExchange_csr_timeout] at hn
      rw [h]
      exact hP.built u hacc' ht hn hPu
  · exact hP.engine u t hmove (hP.same s u hu hs)

end Sys2Proof.Machine
end

section
/-! PROOF. The invariants of the CSRs and the registers (10_state.md R23, R25 to R27, R32, R35, R38;
60_exceptions.md R245), each by its moves: O47 to O51. -/

namespace Sys2Proof.Machine

open Sys2Proof.Safety

/-! ### Codes of reasons and kiss indices -/

theorem reasonCode_ne_zero (r : Reason) : reasonCode r ≠ 0#4 := by cases r <;> decide

theorem reasonCode_le (r : Reason) : reasonCode r ≤ 12 := by cases r <;> decide

/-- Only TemporarilyUnavailable has code 11 (60_exceptions.md R241). -/
theorem reasonCode_eq_eleven_iff (r : Reason) :
    reasonCode r = 11#4 ↔ r = .temporarilyUnavailable := by cases r <;> decide

/-- The index of a code of the table is below its length, and no code found gives 14; counting from
`i` neither is 15 while the table ends there. -/
theorem kissFind_ne_fifteen (c : Half) (table : List Half) (i : Nat) (h : i + table.length ≤ 15) :
    kissFind c i table ≠ 15 := by
  induction table generalizing i with
  | nil => rw [kissFind]; decide
  | cons code table ih =>
    rw [List.length_cons] at h
    rw [kissFind]
    split
    · rw [ne_eq, ← BitVec.toNat_inj, BitVec.toNat_ofNat, Nat.mod_eq_of_lt (by omega)]
      exact (by omega : i < 15).ne
    · exact ih (i + 1) (by omega)

/-- KISSIDX 15 means that no lookup was made (R38): a lookup gives 14 at most. -/
theorem kissLookup_ne_fifteen (c : Half) : kissLookupIn kissTable c ≠ 15#4 :=
  kissFind_ne_fifteen c kissTable 0 (by decide)

/-! ### ERR and STATE (R25, R32) -/

theorem errIffFailed_raiseFailed (r : Reason) (s : State) : ErrIffFailed (raiseFailed r s) := by
  simp [ErrIffFailed, reasonCode_ne_zero]

theorem errIffFailed_kept : KeptByMoves ErrIffFailed where
  same s t h hs := by rw [ErrIffFailed, h.csr]; exact hs
  reset := by unfold ErrIffFailed; decide
  host s t _ h hs := by
    obtain ⟨_, _, _, _, _, _, -, hcsr, -⟩ := h.fields
    rw [ErrIffFailed, hcsr]
    exact hs
  rejected s _ _ := errIffFailed_raiseFailed _ _
  built s _ _ _ _ := by simp [ErrIffFailed]
  engine s t hmove hs := by
    cases hmove with
    | failed | budgetUsed | kissed => exact errIffFailed_raiseFailed _ _
    | emptyPoll hstate | accepted _ hstate => simpa [ErrIffFailed, hstate] using hs
    | sent hstate | loaded hstate | computed hstate | woken hstate | synced hstate =>
      simpa [ErrIffFailed, hstate] using hs

theorem legalCodes_raiseFailed (r : Reason) (s : State) : LegalCodes (raiseFailed r s) := by
  simp only [LegalCodes, raiseFailed_csr_state, raiseFailed_csr_err]
  exact ⟨by decide, reasonCode_le r⟩

theorem legalCodes_kept : KeptByMoves LegalCodes where
  same s t h hs := by rw [LegalCodes, h.csr]; exact hs
  reset := by unfold LegalCodes; decide
  host s t _ h hs := by
    obtain ⟨_, _, _, _, _, _, -, hcsr, -⟩ := h.fields
    rw [LegalCodes, hcsr]
    exact hs
  rejected s _ _ := legalCodes_raiseFailed _ _
  built s _ _ _ _ := by simp [LegalCodes]
  engine s t hmove hs := by
    obtain ⟨-, herr⟩ := hs
    cases hmove with
    | failed | budgetUsed | kissed => exact legalCodes_raiseFailed _ _
    | emptyPoll hstate | accepted _ hstate | synced hstate =>
      simpa [LegalCodes, hstate] using herr
    | sent | loaded | computed | woken => simpa [LegalCodes] using herr

/-- Settles O47: each of the two is kept by the moves on its own. -/
theorem stepKeepsErrIffFailed : Obligations.StepKeepsErrIffFailed :=
  fun s t h => ⟨fun hs => errIffFailed_kept.step s t hs h, fun hs => legalCodes_kept.step s t hs h⟩

/-! ### The flags (R26, R27) -/

theorem flagsAgree_kept : KeptByMoves FlagsAgree where
  same s t h hs := by rw [FlagsAgree, h.csr]; exact hs
  reset := by unfold FlagsAgree; decide
  host s t _ h hs := by
    obtain ⟨_, _, _, _, _, _, -, hcsr, -⟩ := h.fields
    rw [FlagsAgree, hcsr]
    exact hs
  rejected s _ _ := by simp [FlagsAgree]
  built s _ _ _ _ := by simp [FlagsAgree]
  engine s t hmove hs := by
    unfold FlagsAgree at *
    cases hmove with
    | failed r hstate => rcases hstate with hstate | hstate <;> simp_all
    | sent | emptyPoll | budgetUsed | accepted | kissed | loaded | computed | synced | woken =>
      simp_all

/-- Settles O48. -/
theorem stepKeepsFlagsAgree : Obligations.StepKeepsFlagsAgree :=
  fun s t hs h => flagsAgree_kept.step s t hs h

/-! ### Results not reached (R23, R245) -/

theorem unreachedZero_kept : KeptByMoves UnreachedZero where
  same s t h hs := by rw [UnreachedZero, h.csr, h.x]; exact hs
  reset := by unfold UnreachedZero; decide
  host s t _ h hs := by
    obtain ⟨_, _, _, _, _, _, -, hcsr, hx⟩ := h.fields
    rw [UnreachedZero, hcsr, hx]
    exact hs
  rejected s _ _ := by simp [UnreachedZero]
  built s _ _ _ _ := by simp [UnreachedZero]
  engine s t hmove hs := by
    unfold UnreachedZero at *
    cases hmove with
    | failed r hstate => rcases hstate with hstate | hstate <;> simp_all
    | sent | emptyPoll | budgetUsed | accepted | kissed | loaded | computed | synced | woken =>
      simp_all

/-- Settles O49. -/
theorem stepKeepsUnreachedZero : Obligations.StepKeepsUnreachedZero :=
  fun s t hs h => unreachedZero_kept.step s t hs h

/-! ### The poll budget (R35) -/

/-- One poll more, where it does not reach the budget, stays below it. -/
theorem add_one_lt_of_ne (n m : Half) (hlt : n < m) (hne : n + 1 ≠ m) : n + 1 < m := by
  rw [BitVec.lt_def] at hlt ⊢
  rw [ne_eq, ← BitVec.toNat_inj, BitVec.toNat_add] at hne
  rw [BitVec.toNat_add]
  have := m.isLt
  have hone : BitVec.toNat (1 : Half) = 1 := rfl
  omega

theorem pollBudget_kept : KeptByMoves PollBudget where
  same s t h hs := by rw [PollBudget, h.csr]; exact hs
  reset := by unfold PollBudget; decide
  host s t hacc h hs := by
    obtain ⟨_, _, _, _, _, _, -, hcsr, -⟩ := h.fields
    rw [accepting_iff] at hacc
    rw [PollBudget, hcsr]
    rcases hacc with hstate | hstate | hstate <;> simp [hstate]
  rejected s _ _ := by simp [PollBudget]
  built s _ _ hn _ := by simpa [PollBudget] using hn
  engine s t hmove hs := by
    obtain ⟨hbuilt, hpolling⟩ := hs
    cases hmove with
    | failed | budgetUsed | kissed => simp [PollBudget]
    | sent hstate =>
      obtain ⟨hzero, hne⟩ := hbuilt hstate
      simpa [PollBudget, hzero] using fun _ => (BitVec.pos_iff_ne_zero _).2 hne
    | emptyPoll hstate hrx hleft =>
      have hlt := add_one_lt_of_ne _ _ (hpolling hstate hrx) hleft
      simpa [PollBudget, hstate] using fun _ => hlt
    | accepted _ hstate => simp [PollBudget, hstate]
    | loaded | computed | woken => simp [PollBudget]
    | synced hstate => simp [PollBudget, hstate]

/-- Settles O50: TIMEOUT does not change while polling, and a poll that reaches it ends the
polling. -/
theorem stepKeepsPollBudget : Obligations.StepKeepsPollBudget :=
  fun s t hs h => pollBudget_kept.step s t hs h

/-! ### The kiss record (R38) -/

/-- With no reason in ERR there is no record. -/
theorem kissidx_of_err_zero (s : State) (hs : KissRecord s) (herr : s.csr.err = 0) :
    s.csr.kissidx = 15 ∧ s.csr.kiss = 0 := by
  obtain ⟨hiff, hkiss⟩ := hs
  rw [herr] at hiff
  have hidx : s.csr.kissidx = 15 := by
    by_contra hne
    exact absurd (hiff.2 hne) (by decide)
  exact ⟨hidx, hkiss hidx⟩

/-- A failure for another reason makes no record. -/
theorem kissRecord_raiseFailed (r : Reason) (s : State) (hr : r ≠ .temporarilyUnavailable)
    (hidx : s.csr.kissidx = 15) (hkiss : s.csr.kiss = 0) : KissRecord (raiseFailed r s) := by
  simp [KissRecord, reasonCode_eq_eleven_iff, hr, hidx, hkiss]

theorem err_of_busy (s : State) (hs : ErrIffFailed s)
    (hstate : s.csr.state ≠ St.failed) : s.csr.err = 0 := by
  by_contra herr
  exact hstate (hs.1 herr)

theorem kissRecord_kept : KeptByMoves fun s => ErrIffFailed s ∧ KissRecord s where
  same s t h := by rintro ⟨herr, hs⟩; exact ⟨errIffFailed_kept.same s t h herr, by
    rw [KissRecord, h.csr]; exact hs⟩
  reset := ⟨errIffFailed_kept.reset, by unfold KissRecord; decide⟩
  host s t hacc h := by
    rintro ⟨herr, hs⟩
    refine ⟨errIffFailed_kept.host s t hacc h herr, ?_⟩
    obtain ⟨_, _, _, _, _, _, -, hcsr, -⟩ := h.fields
    rw [KissRecord, hcsr]
    exact hs
  rejected s _ _ :=
    ⟨errIffFailed_raiseFailed _ _, kissRecord_raiseFailed _ _ nofun (by simp) (by simp)⟩
  built s hacc ht hn hs := ⟨errIffFailed_kept.built s hacc ht hn hs.1, by simp [KissRecord]⟩
  engine s t hmove := by
    rintro ⟨herr, hs⟩
    refine ⟨errIffFailed_kept.engine s t hmove herr, ?_⟩
    cases hmove with
    | failed r hstate hr =>
      have hzero := err_of_busy s herr (by rcases hstate with h | h <;> rw [h] <;> decide)
      obtain ⟨hidx, hkiss⟩ := kissidx_of_err_zero s hs hzero
      exact kissRecord_raiseFailed r s hr hidx hkiss
    | budgetUsed hstate =>
      have hzero := err_of_busy s herr (by rw [hstate]; decide)
      obtain ⟨hidx, hkiss⟩ := kissidx_of_err_zero s hs hzero
      exact kissRecord_raiseFailed _ _ nofun hidx hkiss
    | kissed => simp [KissRecord, reasonCode_eq_eleven_iff, kissLookup_ne_fifteen]
    | sent | emptyPoll | accepted | loaded | computed | synced | woken =>
      simpa [KissRecord] using hs

/-- Settles O51, with ERR's invariant (O47): a step that fails begins with ERR zero, so with no
record. -/
theorem stepKeepsKissRecord : Obligations.StepKeepsKissRecord :=
  fun s t herr hs h => (kissRecord_kept.step s t ⟨herr, hs⟩ h).2

end Sys2Proof.Machine
end

section
/-! PROOF. The buffers: big-endian fields (20_memory.md R61), O46; and the buffers' invariant
(20_memory.md R73, 30_encoding.md R101, 42_engine_request_validate.md R166), O52. -/

namespace Sys2Proof.Machine

open Sys2Proof.Safety

/-! ### Big-endian fields (R61) -/

/-- Byte `i` of a 4-byte field is the byte at address `a + i`. -/
theorem memRead32_byte (m : Memory) (a i : Nat) (hi : i < 4) :
    (memRead32 m a).extractLsb' (8 * (3 - i)) 8 = memRead8 m (a + i) := by
  rw [memRead32]
  interval_cases i
  · rw [BitVec.extractLsb'_append_eq_of_le (by decide),
      BitVec.extractLsb'_append_eq_of_le (by decide)]
    exact BitVec.extractLsb'_append_eq_left
  · rw [BitVec.extractLsb'_append_eq_of_le (by decide),
      BitVec.extractLsb'_append_eq_of_le (by decide)]
    exact BitVec.extractLsb'_append_eq_right
  · rw [BitVec.extractLsb'_append_eq_of_le (by decide)]
    exact BitVec.extractLsb'_append_eq_right
  · exact BitVec.extractLsb'_append_eq_right

/-- Byte `i` of an 8-byte field is the byte at address `a + i`. -/
theorem memRead64_byte (m : Memory) (a i : Nat) (hi : i < 8) :
    (memRead64 m a).extractLsb' (8 * (7 - i)) 8 = memRead8 m (a + i) := by
  rw [memRead64]
  rcases Nat.lt_or_ge i 4 with hhigh | hlow
  · rw [BitVec.extractLsb'_append_eq_of_le (by omega), ← memRead32_byte m a i hhigh]
    congr 1
    omega
  · rw [BitVec.extractLsb'_append_eq_of_add_le (by omega), show a + i = a + 4 + (i - 4) by omega,
      ← memRead32_byte m (a + 4) (i - 4) (by omega)]
    congr 1
    omega

/-- A 64-bit value is its eight bytes. -/
theorem word_eq_of_bytes (v w : Word)
    (h : ∀ i < 8, v.extractLsb' (8 * (7 - i)) 8 = w.extractLsb' (8 * (7 - i)) 8) : v = w := by
  refine BitVec.eq_of_getLsbD_eq fun k hk => ?_
  have hbyte := congrArg (·.getLsbD (k % 8)) (h (7 - k / 8) (by omega))
  simp only [BitVec.getLsbD_extractLsb'] at hbyte
  rwa [show 8 * (7 - (7 - k / 8)) + k % 8 = k by omega, decide_eq_true (by omega : k % 8 < 8),
    Bool.true_and, Bool.true_and] at hbyte

/-- An 8-byte write reads back. -/
theorem memRead64_memWrite64 (m : Memory) (a : Nat) (v : Word) (hm : m.wf = true)
    (ha : ∀ i < 8, inBuffer (a + i) = true) : memRead64 (memWrite64 m a v) a = v := by
  refine word_eq_of_bytes _ _ fun i hi => ?_
  rw [memRead64_byte _ _ i hi, memRead8_memWrite64 m a _ v hm ha, if_pos (by omega),
    Nat.add_sub_cancel_left]

/-- Settles O46: fields are read byte by byte, and an 8-byte write is eight byte writes. -/
theorem fieldsAreBigEndian : Obligations.FieldsAreBigEndian := by
  refine ⟨memRead64_byte, memRead32_byte,
    fun m a v hm ha => ⟨memRead64_memWrite64 m a v hm ha, fun i hi => ?byte, fun b hb => ?frame⟩,
    fun m a b v hm => memRead8_memWrite8 m a b v hm⟩
  case byte =>
    rw [memRead8_memWrite64 m a _ v hm ha, if_pos (by omega), Nat.add_sub_cancel_left]
  case frame => rw [memRead8_memWrite64 m a b v hm ha, if_neg hb]

/-! ### The memory after POLL and GETTIME -/

/-- The 48 bytes an accepted reply is cut to go to buffer addresses. -/
theorem inBuffer_take_rx (bytes : List Byte) (i : Nat)
    (hi : i < (bytes.take Config.pktLen).length) : inBuffer (Config.rxBase + i) = true :=
  inBuffer_rx i (hi.trans_le (List.length_take_le _ _))

theorem pollAccept_wf (bytes : List Byte) (s : State) (hm : s.mem.wf = true) :
    (pollAccept bytes s).mem.wf = true := by
  rw [pollAccept_mem]
  exact memWriteBytes_wf _ _ _ hm (inBuffer_take_rx bytes)

/-- Accepting a reply writes its first 48 bytes to RXBUF (41_transport.md R137). -/
theorem memRead8_pollAccept_rx (bytes : List Byte) (s : State) (k : Nat) (hm : s.mem.wf = true)
    (hlong : 48 ≤ bytes.length) (hk : k < 48) :
    memRead8 (pollAccept bytes s).mem (192 + k) = bytes[k] := by
  rw [pollAccept_mem, memRead8_memWriteBytes _ _ _ _ hm (inBuffer_take_rx bytes), dif_pos]
  · simp
  · simp only [Config.rxBase, Config.pktLen, List.length_take]
    omega

/-- Accepting a reply writes RXBUF only (41_transport.md R137). -/
theorem memRead8_pollAccept_of_not_rx (bytes : List Byte) (s : State) (a : Nat)
    (hm : s.mem.wf = true) (ha : ¬(192 ≤ a ∧ a < 240)) :
    memRead8 (pollAccept bytes s).mem a = memRead8 s.mem a := by
  rw [pollAccept_mem, memRead8_memWriteBytes _ _ _ _ hm (inBuffer_take_rx bytes), dif_neg]
  simp only [Config.rxBase, Config.pktLen, List.length_take]
  omega

theorem buildRequest_wf (s : State) (hm : s.mem.wf = true) : (buildRequest s).mem.wf = true := by
  rw [buildRequest_mem]
  exact memWrite8_wf _ _ _ (memWrite64_wf _ _ _ hm inBuffer_transmitTime)
    (inBuffer_tx offHeader (by decide))

/-! ### The buffers' invariant (R73, R101, R166) -/

theorem busy_eq_of_state (s t : State) (h : t.csr.state = s.csr.state) : t.busy = s.busy := by
  rw [State.busy, h, State.busy]

/-- A move that writes neither buffer and does not begin an exchange keeps the invariant. -/
theorem bufferImage_of_mem_eq (s t : State) (hs : BufferImage s) (hmem : t.mem = s.mem)
    (hrx : t.csr.rxvalid = s.csr.rxvalid)
    (hbusy : t.busy = true → s.busy = true ∧ t.x.t1 = s.x.t1) : BufferImage t := by
  obtain ⟨hwf, htx, hzero⟩ := hs
  rw [BufferImage, hmem, hrx]
  refine ⟨hwf, fun hb => ?_, hzero⟩
  obtain ⟨hb', ht1⟩ := hbusy hb
  rw [ht1]
  exact htx hb'

theorem raiseFailed_not_busy (r : Reason) (s : State) : (raiseFailed r s).busy = false := by
  simp [State.busy]

/-- The clear leaves both buffers zero, and the failure is not busy. -/
theorem bufferImage_rejected (s : State) (hs : BufferImage s) :
    BufferImage (raiseFailed .invalidArgument (clearExchange s)) := by
  obtain ⟨hwf, -, -⟩ := hs
  refine ⟨?_, fun hb => ?_, fun _ k _ => ?_⟩
  · rw [raiseFailed_mem, clearExchange_mem]
    exact clearBuffers_wf _ hwf
  · rw [raiseFailed_not_busy] at hb
    cases hb
  · rw [raiseFailed_mem, clearExchange_mem]
    exact memRead8_clearBuffers _ _ hwf

/-- GETTIME builds the image of R101 and leaves RXBUF zero. -/
theorem bufferImage_built (s : State) (hs : BufferImage s) :
    BufferImage (buildRequest (clearExchange s)) := by
  obtain ⟨hwf, -, -⟩ := hs
  refine ⟨buildRequest_wf _ ?_, fun _ k hk => ?_, fun _ k _ => ?_⟩
  · rw [clearExchange_mem]
    exact clearBuffers_wf _ hwf
  · rw [buildRequest_x, clearExchange_x_t1]
    exact memRead8_request_tx s k hk hwf
  · exact memRead8_request_not_tx s _ (by simp only [Config.rxBase]; omega) hwf

/-- A reply goes to RXBUF only, and RXVALID says that it is there. -/
theorem bufferImage_accepted (bytes : List Byte) (s : State) (hs : BufferImage s) :
    BufferImage (pollAccept bytes s) := by
  obtain ⟨hwf, htx, -⟩ := hs
  refine ⟨pollAccept_wf bytes s hwf, fun hb k hk => ?_, fun hrx => ?_⟩
  · have hout : ¬(192 ≤ Config.txBase + k ∧ Config.txBase + k < 240) := by
      simp only [Config.txBase, Config.pktLen] at hk ⊢
      omega
    rw [memRead8_pollAccept_of_not_rx bytes s _ hwf hout, pollAccept_x]
    exact htx (by rwa [← busy_eq_of_state s _ (pollAccept_csr_state bytes s)]) k hk
  · rw [pollAccept_csr_rxvalid] at hrx
    cases hrx

theorem bufferImage_engine (s t : State) (hmove : EngineMove s t) (hs : BufferImage s) :
    BufferImage t := by
  cases hmove with
  | accepted bytes => exact bufferImage_accepted bytes s hs
  | failed | budgetUsed | kissed =>
    refine bufferImage_of_mem_eq s _ hs (by simp) (by simp) fun hb => ?_
    rw [raiseFailed_not_busy] at hb
    cases hb
  | sent hstate | emptyPoll hstate | loaded hstate | computed hstate | synced hstate
  | woken hstate =>
    refine bufferImage_of_mem_eq s _ hs (by simp) (by simp) fun _ => ⟨?_, by simp⟩
    simp [State.busy, hstate]

theorem bufferImage_kept : KeptByMoves BufferImage where
  same s t h hs := by
    refine bufferImage_of_mem_eq s t hs h.mem (by rw [h.csr]) fun hb => ⟨?_, by rw [h.x]⟩
    rwa [← busy_eq_of_state s t (by rw [h.csr])]
  reset := ⟨wf_nil, nofun, fun _ k _ => memRead8_reset _⟩
  host s t hacc h hs := by
    refine bufferImage_of_mem_eq s t hs h.mem (by rw [h.csr]) fun hb => ?_
    rw [busy_eq_of_state s t (by rw [h.csr]), not_busy_of_accepting s hacc] at hb
    cases hb
  rejected s _ hs := bufferImage_rejected s hs
  built s _ _ _ hs := bufferImage_built s hs
  engine s t hmove hs := bufferImage_engine s t hmove hs

/-- Settles O52: GETTIME makes the image and the zeros, an accepted reply replaces the zeros, and no
other move writes a buffer. -/
theorem stepKeepsBufferImage : Obligations.StepKeepsBufferImage :=
  fun s t hs h => bufferImage_kept.step s t hs h

end Sys2Proof.Machine
end

section
/-! PROOF. SEND and POLL (41_transport.md R130 to R139): O27 to O31, and by induction on the polls
O32. -/

namespace Sys2Proof.Machine

open Sys2Proof.Safety

/-! ### SEND (R130 to R132) -/

theorem exec_send (s : State) (hs : s.csr.state = 1) : exec .send s =
    .next (if s.env.netUp then sendOutcome s else raiseFailed .networkUnavailable s) :=
  exec_of_enabled .send s (beq_iff_eq.2 hs)

theorem requestBytes_getElem? (s : State) (k : Nat) (hk : k < 48) :
    (requestBytes s)[k]? = some (memRead8 s.mem (128 + k)) := by
  have hlen : k < (requestBytes s).length := (memReadBytes_length _ _ _).symm ▸ hk
  rw [List.getElem?_eq_getElem hlen]
  exact congrArg some (memReadBytes_getElem _ _ _ _ hlen)

/-- Settles O27: the network first, then the bytes handed over, then the transport's status. -/
theorem sendOutcomes : Obligations.SendOutcomes := by
  intro s hs
  refine ⟨fun hdown => ?down, fun hup => ⟨requestBytes s, ?up, memReadBytes_length _ _ _,
    requestBytes_getElem? s⟩⟩
  case down =>
    rw [exec_send s hs, hdown]
    rfl
  case up =>
    rw [exec_send s hs, if_pos hup, sendOutcome]
    cases s.env.sendStatus <;> rfl

/-! ### One POLL (R134 to R138) -/

/-- POLL's `require` holds on the first poll and whenever the counter has moved (R134, R139). -/
theorem exec_poll (s : State) (hstate : s.csr.state = 2) (hrx : s.csr.rxvalid = false)
    (hpast : s.csr.pollcnt = 0 ∨ s.env.ms ≠ s.csr.mspoll) :
    exec .poll s = .next (pollOutcome s) :=
  exec_of_enabled .poll s ((pollEnabled_iff s).2 ⟨hstate, hrx, hpast⟩)

theorem consumeRx_of_none (s : State) (h : s.env.rx = none) : consumeRx s = s := by
  rw [consumeRx, ← h]

/-- Without a datagram, or with an empty one, a poll is an empty poll (10_state.md R53). -/
theorem pollOutcome_empty (s : State) (h : s.env.rx = none ∨ s.env.rx = some []) :
    pollOutcome s = pollEmpty (consumeRx s) := by
  rcases h with h | h
  · rw [pollOutcome, h, consumeRx_of_none s h]
  · rw [pollOutcome, h]
    rfl

/-- Settles O28: the poll is counted and latched, and the budget decides on ERR and STATE. -/
theorem pollCountsEmptyPoll : Obligations.PollCountsEmptyPoll := by
  intro s hstate hrx hpast hnone
  rw [exec_poll s hstate hrx hpast, pollOutcome_empty s hnone, pollEmpty_eq, consumeRx_csr]
  split
  · rfl
  · rw [countPoll, consumeRx]
    simp only [← hstate]

theorem pollOutcome_short (s : State) (bytes : List Byte) (h : s.env.rx = some bytes)
    (hpos : 1 ≤ bytes.length) (hshort : bytes.length ≤ 47) :
    pollOutcome s = raiseFailed .protocolMismatch (consumeRx s) := by
  rw [pollOutcome, h]
  dsimp only
  rw [if_neg (by omega), if_pos (by simp only [Config.pktLen]; omega)]

/-- Settles O29. -/
theorem pollRejectsShortDatagram : Obligations.PollRejectsShortDatagram := by
  intro s bytes hstate hrx hpast hsome hpos hshort
  rw [exec_poll s hstate hrx hpast, pollOutcome_short s bytes hsome hpos hshort]
  rfl

theorem pollOutcome_long (s : State) (bytes : List Byte) (h : s.env.rx = some bytes)
    (hlong : 48 ≤ bytes.length) : pollOutcome s = pollAccept bytes (consumeRx s) := by
  rw [pollOutcome, h]
  dsimp only
  rw [if_neg (by omega), if_neg (by simp only [Config.pktLen]; omega)]

/-- Settles O30: the memory is the one that accepting the reply leaves. -/
theorem pollAcceptsReply : Obligations.PollAcceptsReply := by
  intro s bytes hm hstate hrx hpast hsome hlong
  refine ⟨(pollAccept bytes (consumeRx s)).mem, ?step, pollAccept_wf _ _ hm, fun k hk => ?stored,
    fun a ha => memRead8_pollAccept_of_not_rx bytes _ a hm ha⟩
  case step =>
    rw [exec_poll s hstate hrx hpast, pollOutcome_long s bytes hsome hlong]
    rfl
  case stored =>
    rw [memRead8_pollAccept_rx bytes (consumeRx s) k hm hlong hk, List.getElem?_eq_getElem]

/-! ### The selector (30_encoding.md R90, R91) -/

/-- What STATE, RXVALID and SYNCED are where the selector enables the engine step `i` (R91). -/
def Selected (i : Instr) (s : State) : Prop :=
  match i with
  | .send => s.csr.state = 1
  | .poll => s.csr.state = 2 ∧ s.csr.rxvalid = false
  | .validate => s.csr.state = 2 ∧ s.csr.rxvalid = true
  | .compute => s.csr.state = 3
  | .sync => s.csr.state = 4 ∧ s.csr.synced = false
  | .wake => s.csr.state = 4 ∧ s.csr.synced = true
  | _ => False

/-- The selector's code decodes to the step that STATE, RXVALID and SYNCED select. -/
theorem decodeSelector_selector_iff (i : Instr) (s : State) :
    decodeSelector s.selector = .ok i ↔ Selected i s := by
  rw [State.selector]
  unfold Selected
  generalize s.csr.state = state
  generalize s.csr.rxvalid = rxvalid
  generalize s.csr.synced = synced
  cases i <;> revert state rxvalid synced <;> decide

/-- An enabled engine step is selected; POLL and WAKE can wait though they are selected. -/
theorem selected_of_enabled (i : Instr) (s : State) (hi : i.isEngineStep = true)
    (h : enabled i s = true) : Selected i s := by
  cases i with
  | sec32 | sec64 | frac32 | frac64 | pack32 | pack64 | kisslk | gettime => cases hi
  | send | validate | compute | sync => simpa [enabled, Selected] using h
  | poll =>
    obtain ⟨hstate, hrx, -⟩ := (pollEnabled_iff s).1 h
    exact ⟨hstate, hrx⟩
  | wake =>
    obtain ⟨hstate, hsynced, -⟩ := (wakeEnabled_iff s).1 h
    exact ⟨hstate, hsynced⟩

/-- The engine can take a step exactly where the selected one is not held. -/
theorem engineEnabled_of_selected (i : Instr) (s : State) (h : Selected i s) :
    engineEnabled s = enabled i s := by
  rw [engineEnabled, (decodeSelector_selector_iff i s).2 h]
  cases i with
  | sec32 | sec64 | frac32 | frac64 | pack32 | pack64 | kisslk | gettime => cases h
  | send | validate | compute | sync => simpa [enabled, Selected] using h
  | poll | wake => rfl

/-! ### The wait between polls (R139) -/

theorem clockTick_ms_ne (s : State) : (clockTick s).env.ms ≠ s.env.ms := by
  rw [clockTick_env_ms, ne_eq, ← BitVec.toNat_inj, BitVec.toNat_add]
  have hone : BitVec.toNat (1 : Half) = 1 := rfl
  omega

/-- Settles O31: POLL is held exactly while the counter still shows the last empty poll's time, and
a tick moves it on. -/
theorem pollIsHeldUntilATick : Obligations.PollIsHeldUntilATick := by
  intro s hstate hrx
  have hpoll : engineEnabled s = enabled .poll s := engineEnabled_of_selected .poll s ⟨hstate, hrx⟩
  have hiff : engineEnabled s = true ↔ s.csr.pollcnt = 0 ∨ s.env.ms ≠ s.csr.mspoll := by
    rw [hpoll]
    exact (pollEnabled_iff s).trans (by simp [hstate, hrx])
  refine ⟨hiff, fun hheld => ⟨?held, ?lifted⟩⟩
  case held =>
    rw [exec_eq, ← hpoll, hheld, if_neg Bool.false_ne_true]
  case lifted =>
    have hms : s.env.ms = s.csr.mspoll := by
      rw [← Bool.not_eq_true, hiff] at hheld
      push Not at hheld
      exact hheld.2
    rw [engineEnabled_of_selected .poll _ (by rw [Selected, clockTick_csr]; exact ⟨hstate, hrx⟩)]
    refine (pollEnabled_iff _).2 ⟨by simpa using hstate, by simpa using hrx, .inr ?_⟩
    rw [clockTick_csr, ← hms]
    exact clockTick_ms_ne s

/-! ### The polls of a whole exchange without a reply (R136, R139) -/

/-- Ticks only move the counter. -/
theorem ticks_eq (n : Nat) (s : State) :
    ticks n s = { s with env := { s.env with ms := s.env.ms + BitVec.ofNat 32 n } } := by
  induction n generalizing s with
  | zero => simp [ticks]
  | succ n ih =>
    rw [ticks, ih, Nat.add_comm n 1, BitVec.ofNat_add, ← BitVec.add_assoc]
    rfl

/-- The state a POLL meets after `gap` ticks without a datagram. -/
def afterGap (s : State) (gap : Nat) : State :=
  { s with env := { s.env with ms := s.env.ms + BitVec.ofNat 32 gap, rx := none } }

@[simp] theorem afterGap_csr (s : State) (gap : Nat) : (afterGap s gap).csr = s.csr := rfl
@[simp] theorem afterGap_x (s : State) (gap : Nat) : (afterGap s gap).x = s.x := rfl
@[simp] theorem afterGap_mem (s : State) (gap : Nat) : (afterGap s gap).mem = s.mem := rfl
@[simp] theorem afterGap_env_ms (s : State) (gap : Nat) :
    (afterGap s gap).env.ms = s.env.ms + BitVec.ofNat 32 gap := rfl

/-- A poll of `emptyPolls` that is not held is an empty poll (R136). -/
theorem emptyPollAfter_eq (s : State) (gap : Nat) (hstate : s.csr.state = 2)
    (hrx : s.csr.rxvalid = false) (hpast : s.csr.pollcnt = 0 ∨
      s.env.ms + BitVec.ofNat 32 gap ≠ s.csr.mspoll) :
    emptyPollAfter s gap = pollEmpty (afterGap s gap) := by
  have hexec : exec .poll (afterGap s gap) = .next (pollEmpty (afterGap s gap)) := by
    rw [exec_poll (afterGap s gap) hstate hrx hpast, pollOutcome_empty _ (.inl rfl),
      consumeRx_of_none _ rfl]
  rw [emptyPollAfter, ticks_eq]
  dsimp only
  rw [← afterGap, hexec]

/-- What holds after one empty poll for each entry of `gaps`, at most TIMEOUT of them. -/
structure AfterEmptyPolls (s : State) (gaps : List Nat) (t : State) : Prop where
  pollcnt : t.csr.pollcnt.toNat = gaps.length
  ms : t.env.ms = s.env.ms + BitVec.ofNat 32 gaps.sum
  mspoll : gaps ≠ [] → t.csr.mspoll = t.env.ms
  x : t.x = s.x
  mem : t.mem = s.mem
  rxvalid : t.csr.rxvalid = false
  timeout : t.csr.timeout = s.csr.timeout
  polling : gaps.length < s.csr.timeout.toNat → t.csr.state = 2 ∧ t.csr.err = s.csr.err
  failed : gaps.length = s.csr.timeout.toNat → t.csr.state = 6 ∧ t.csr.err = 6

/-- A gap that is no multiple of 2^32 moves the counter. -/
theorem add_gap_ne (m : Half) (gap : Nat) (h : gap % 2 ^ 32 ≠ 0) : m + BitVec.ofNat 32 gap ≠ m := by
  rw [ne_eq, ← BitVec.toNat_inj, BitVec.toNat_add, BitVec.toNat_ofNat]
  omega

/-- After an empty poll the next one that the counter lets through is not held. -/
theorem AfterEmptyPolls.not_held {s t : State} {gaps : List Nat} (h : AfterEmptyPolls s gaps t)
    (gap : Nat) (hgap : gaps ≠ [] → gap % 2 ^ 32 ≠ 0) :
    t.csr.pollcnt = 0 ∨ t.env.ms + BitVec.ofNat 32 gap ≠ t.csr.mspoll := by
  by_cases hnil : gaps = []
  · left
    rw [← BitVec.toNat_inj, h.pollcnt, hnil]
    rfl
  · right
    rw [h.mspoll hnil]
    exact add_gap_ne _ _ (hgap hnil)

/-- One empty poll more. -/
theorem AfterEmptyPolls.snoc {s t : State} {gaps : List Nat} (h : AfterEmptyPolls s gaps t)
    (gap : Nat) (hgap : gaps ≠ [] → gap % 2 ^ 32 ≠ 0)
    (hlen : gaps.length < s.csr.timeout.toNat) :
    AfterEmptyPolls s (gaps ++ [gap]) (emptyPollAfter t gap) := by
  obtain ⟨hstate, herr⟩ := h.polling hlen
  have hcount : (t.csr.pollcnt + 1).toNat = gaps.length + 1 := by
    have hone : BitVec.toNat (1 : Half) = 1 := rfl
    have := s.csr.timeout.isLt
    rw [BitVec.toNat_add, h.pollcnt, hone]
    omega
  have hused : t.csr.pollcnt + 1 = t.csr.timeout ↔ gaps.length + 1 = s.csr.timeout.toNat := by
    rw [← BitVec.toNat_inj, hcount, h.timeout]
  have hms : t.env.ms + BitVec.ofNat 32 gap =
      s.env.ms + BitVec.ofNat 32 (gaps ++ [gap]).sum := by
    rw [h.ms, List.sum_append, List.sum_singleton, BitVec.ofNat_add, BitVec.add_assoc]
  rw [emptyPollAfter_eq t gap hstate h.rxvalid (h.not_held gap hgap), pollEmpty_eq, afterGap_csr,
    if_congr hused rfl rfl]
  split
  · next hlast =>
    constructor
    case pollcnt => simpa using hcount
    case ms => simpa [countPoll] using hms
    case mspoll => simp [countPoll]
    case x => simpa using h.x
    case mem => simpa using h.mem
    case rxvalid => simpa using h.rxvalid
    case timeout => simpa using h.timeout
    case polling => rw [List.length_append, List.length_singleton]; omega
    case failed => exact fun _ => ⟨raiseFailed_csr_state _ _, raiseFailed_csr_err _ _⟩
  · next hmore =>
    constructor
    case pollcnt => simpa using hcount
    case ms => simpa [countPoll] using hms
    case mspoll => simp [countPoll]
    case x => exact h.x
    case mem => exact h.mem
    case rxvalid => exact h.rxvalid
    case timeout => exact h.timeout
    case polling => exact fun _ => ⟨hstate, herr⟩
    case failed => rw [List.length_append, List.length_singleton]; exact fun h => absurd h hmore

/-- The exchange after any number of empty polls, by induction on the polls made. -/
theorem emptyPolls_spec (s : State) (hstate : s.csr.state = 2) (hrx : s.csr.rxvalid = false)
    (hcnt : s.csr.pollcnt = 0) (hbudget : s.csr.timeout ≠ 0) (gaps : List Nat)
    (hgaps : ∀ gap ∈ gaps.tail, gap % 2 ^ 32 ≠ 0) (hlen : gaps.length ≤ s.csr.timeout.toNat) :
    AfterEmptyPolls s gaps (emptyPolls gaps s) := by
  induction gaps using List.reverseRecOn with
  | nil =>
    refine ⟨by rw [emptyPolls, List.foldl_nil, hcnt]; rfl, by simp [emptyPolls], nofun, rfl, rfl,
      hrx, rfl, fun _ => ⟨hstate, rfl⟩, fun hzero => ?_⟩
    exact absurd (BitVec.toNat_inj.1 hzero.symm) hbudget
  | append_singleton gaps gap ih =>
    rw [List.length_append, List.length_singleton] at hlen
    rw [emptyPolls, List.foldl_append, List.foldl_cons, List.foldl_nil, ← emptyPolls]
    refine (ih (fun g hg => hgaps g ?_) (by omega)).snoc gap (fun hne => hgaps gap ?_) hlen
    · cases gaps with
      | nil => cases hg
      | cons first later => exact List.mem_append_left _ hg
    · cases gaps with
      | nil => exact absurd rfl hne
      | cons first later => exact List.mem_append_right _ List.mem_cons_self

/-- Settles O32. -/
theorem timeoutAfterExactlyTheBudget : Obligations.TimeoutAfterExactlyTheBudget := by
  intro s hstate hrx hcnt hbudget gaps hgaps hlen
  have h := emptyPolls_spec s hstate hrx hcnt hbudget gaps hgaps hlen
  refine ⟨h.pollcnt, ?_, h.mspoll, h.x, h.mem, h.polling, h.failed⟩
  rw [h.ms, BitVec.toNat_add, BitVec.toNat_ofNat, Nat.add_mod_mod]

end Sys2Proof.Machine
end

section
/-! PROOF. Rules of the whole machine: STATE's transitions (10_state.md R26), O55; who writes while
busy and what stays after an exchange (20_memory.md R70, R71), O56 and O57; progress
(70_reset_and_hazards.md R283), O58 and O59; what is not enabled does nothing, O16; nothing stops
the block, O60. -/

namespace Sys2Proof.Machine

open Sys2Proof.Safety

/-! ### Transitions of STATE (R26) -/

/-- The engine's transitions: each move goes to the next state of R26 or stays. -/
theorem engineMove_state (s t : State) (h : EngineMove s t) (hne : t.csr.state ≠ s.csr.state) :
    (s.csr.state, t.csr.state) ∈
      [(1#3, 2#3), (1#3, 6#3), (2#3, 3#3), (2#3, 6#3), (3#3, 4#3), (4#3, 5#3)] := by
  cases h with
  | failed r hstate hr => rcases hstate with hstate | hstate <;> simp [hstate]
  | emptyPoll | accepted | synced => exact absurd (by simp) hne
  | sent hstate | budgetUsed hstate | kissed hstate | loaded hstate | computed hstate
  | woken hstate => simp [hstate]

/-- GETTIME goes to RequestBuilt or to Failed (42_engine_request_validate.md R150, R153). -/
theorem startExchange_state (s : State) : (startExchange s).csr.state ∈ [1#3, 6#3] := by
  obtain ⟨-, h⟩ | ⟨-, -, h⟩ := startExchange_cases s <;> simp [h]

theorem mem_of_accepting (s : State) (h : s.accepting = true) :
    s.csr.state ∈ [0#3, 5#3, 6#3] := by
  simpa using (accepting_iff s).1 h

/-- Settles O55: of the step's moves only the reset, GETTIME and the engine's write STATE. -/
theorem noOtherTransition : Obligations.NoOtherTransition := by
  intro s t h hne
  obtain hsame | ⟨hturn, hreset⟩ | ⟨-, -, hchange⟩ | ⟨hturn, hacc, -, u, -, rfl⟩ |
    ⟨hturn, u, hu, hmove⟩ := step_moves s t h
  · exact absurd (by rw [hsame.csr]) hne
  · exact .inl ⟨hturn, by rw [hreset.csr]; rfl⟩
  · exact absurd (by rw [hchange.csr]) hne
  · exact .inr (.inl ⟨hturn, mem_of_accepting s hacc, startExchange_state _⟩)
  · rw [← hu.csr] at hne ⊢
    exact .inr (.inr ⟨hturn, engineMove_state u t hmove hne⟩)

/-! ### Who writes while busy, and what stays (20_memory.md R70, R71) -/

/-- The engine writes no register that the host owns, nor RES, nor TIMEOUT (10_state.md R22). -/
theorem engineMove_keeps_host (s t : State) (h : EngineMove s t) :
    t.x.opa = s.x.opa ∧ t.x.ops = s.x.ops ∧ t.x.opf = s.x.opf ∧ t.x.res = s.x.res ∧
      t.x.t1 = s.x.t1 ∧ t.csr.timeout = s.csr.timeout := by
  cases h <;> simp

theorem not_accepting_of_mem (s : State) (h : s.csr.state ∈ [1#3, 2#3, 3#3, 4#3]) :
    s.accepting = false :=
  accepting_of_busy s ((busy_iff s).2 (by simpa using h))

/-- Settles O56: while busy the bus accepts no write, so only the engine's moves are left. -/
theorem onlyTheEngineWritesWhileBusy : Obligations.OnlyTheEngineWritesWhileBusy := by
  intro s t h hbusy hnoReset
  have hacc := not_accepting_of_mem s hbusy
  obtain hsame | ⟨hturn, -⟩ | ⟨-, hacc', -⟩ | ⟨-, hacc', -⟩ | ⟨hturn, u, hu, hmove⟩ :=
    step_moves s t h
  · rw [hsame.x, hsame.csr]
    exact ⟨rfl, rfl, rfl, rfl, rfl, rfl, fun _ => ⟨rfl, rfl, hsame.mem⟩⟩
  · exact absurd hturn hnoReset
  · rw [hacc] at hacc'
    cases hacc'
  · rw [hacc] at hacc'
    cases hacc'
  · obtain ⟨hopa, hops, hopf, hres, ht1, htimeout⟩ := engineMove_keeps_host u t hmove
    rw [hu.x] at hopa hops hopf hres ht1
    rw [hu.csr] at htimeout
    exact ⟨hopa, hops, hopf, hres, ht1, htimeout, fun hne => absurd hturn hne⟩

/-- The engine moves in the busy states only (30_encoding.md R91). -/
theorem engineMove_busy (s t : State) (h : EngineMove s t) :
    s.csr.state ∈ [1#3, 2#3, 3#3, 4#3] := by
  cases h with
  | failed r hstate => rcases hstate with hstate | hstate <;> simp [hstate]
  | sent hstate | emptyPoll hstate | budgetUsed hstate | accepted _ hstate | kissed hstate
  | loaded hstate | computed hstate | synced hstate | woken hstate => simp [hstate]

/-- Settles O57: in Done and Failed the engine has no move, and of the bus's moves only GETTIME
writes a result. -/
theorem resultsStayUntilGettime : Obligations.ResultsStayUntilGettime := by
  intro s t h hended hnoReset hnoGettime
  obtain hsame | ⟨hturn, -⟩ | ⟨-, -, hchange⟩ |
    ⟨hturn, -, ⟨w, rest, d, hqueue, hword, hbyte⟩, -⟩ | ⟨-, u, hu, hmove⟩ := step_moves s t h
  · rw [hsame.x, hsame.csr]
    exact ⟨hsame.mem, rfl, rfl⟩
  · exact absurd hturn hnoReset
  · exact ⟨hchange.mem, hchange.csr, hchange.x⟩
  · exact absurd hbyte (hnoGettime hturn w rest d hqueue hword)
  · have hbusy := engineMove_busy u t hmove
    have hdisjoint : ∀ st ∈ [5#3, 6#3], st ∉ [1#3, 2#3, 3#3, 4#3] := by decide
    rw [hu.csr] at hbusy
    exact absurd hbusy (hdisjoint _ hended)

/-! ### What is not enabled (log 2) -/

/-- Settles O16: what is not enabled is held; a busy block enables no command, and an enabled engine
step is the selected one. -/
theorem notEnabledInstructionChangesNothing : Obligations.NotEnabledInstructionChangesNothing := by
  refine fun s i => ⟨fun hcommand hbusy => ?command, fun hengine hother => ?engine⟩
  case command =>
    rw [exec_eq, enabled_of_command i s hcommand, not_accepting_of_mem s hbusy,
      if_neg Bool.false_ne_true]
  case engine =>
    rw [exec_eq, if_neg]
    intro henabled
    have hselected := selected_of_enabled i s hengine henabled
    exact hother i ((decodeSelector_selector_iff i s).2 hselected) rfl

/-! ### Progress (70_reset_and_hazards.md R283) -/

/-- The engine's turn takes a step exactly where one is enabled. -/
theorem exists_enabled_of_engineEnabled (s : State) (h : engineEnabled s = true) :
    ∃ i, decodeSelector s.selector = .ok i ∧ enabled i s = true := by
  cases hd : decodeSelector s.selector with
  | error r => rw [engineEnabled, hd] at h; cases h
  | ok i =>
    refine ⟨i, rfl, ?_⟩
    rwa [← engineEnabled_of_selected i s ((decodeSelector_selector_iff i s).1 hd)]

/-! The bound by STATE: the polls left and the steps after them. -/

theorem stepsLeft_built (s : State) (hstate : s.csr.state = 1) :
    stepsLeft s = s.csr.timeout.toNat - s.csr.pollcnt.toNat + 5 := by simp [stepsLeft, hstate]

theorem stepsLeft_polling (s : State) (hstate : s.csr.state = 2) (hrx : s.csr.rxvalid = false) :
    stepsLeft s = s.csr.timeout.toNat - s.csr.pollcnt.toNat + 4 := by
  simp [stepsLeft, hstate, hrx]

theorem stepsLeft_replied (s : State) (hstate : s.csr.state = 2) (hrx : s.csr.rxvalid = true) :
    stepsLeft s = 4 := by simp [stepsLeft, hstate, hrx]

theorem stepsLeft_validated (s : State) (hstate : s.csr.state = 3) : stepsLeft s = 3 := by
  simp [stepsLeft, hstate]

theorem stepsLeft_offsetComputed (s : State) (hstate : s.csr.state = 4) :
    stepsLeft s = if s.csr.synced then 1 else 2 := by simp [stepsLeft, hstate]

theorem stepsLeft_ended (s : State) (hstate : s.csr.state = 5 ∨ s.csr.state = 6) :
    stepsLeft s = 0 := by
  rcases hstate with hstate | hstate <;> simp [stepsLeft, hstate]

/-- Before the reply is validated at least four steps are left. -/
theorem four_le_stepsLeft (s : State) (hstate : s.csr.state = 1 ∨ s.csr.state = 2) :
    4 ≤ stepsLeft s := by
  obtain hbuilt | hawaiting := hstate
  · rw [stepsLeft_built s hbuilt]
    omega
  · cases hrx : s.csr.rxvalid with
    | false =>
      rw [stepsLeft_polling s hawaiting hrx]
      omega
    | true => rw [stepsLeft_replied s hawaiting hrx]

/-- An empty poll with polls left takes one of them. -/
theorem stepsLeft_countPoll_lt (s : State) (hbudget : s.csr.pollcnt < s.csr.timeout)
    (hstate : s.csr.state = 2) (hrx : s.csr.rxvalid = false) :
    stepsLeft (countPoll s) < stepsLeft s := by
  have hlt := BitVec.lt_def.1 hbudget
  have hle := s.csr.timeout.isLt
  have hcount : (s.csr.pollcnt + 1#32).toNat = s.csr.pollcnt.toNat + 1 := by
    rw [BitVec.toNat_add, BitVec.toNat_ofNat]
    omega
  calc stepsLeft (countPoll s) = s.csr.timeout.toNat - (s.csr.pollcnt + 1#32).toNat + 4 :=
        stepsLeft_polling (countPoll s) hstate hrx
    _ < s.csr.timeout.toNat - s.csr.pollcnt.toNat + 4 := by omega
    _ = stepsLeft s := (stepsLeft_polling s hstate hrx).symm

/-- Of the steps left, each move takes at least one. -/
theorem engineMove_stepsLeft (s t : State) (hbudget : PollBudget s) (h : EngineMove s t) :
    stepsLeft t < stepsLeft s := by
  obtain ⟨-, hpolling⟩ := hbudget
  cases h with
  | sent hstate =>
    have hawaiting : stepsLeft (setState St.awaiting s) ≤
        s.csr.timeout.toNat - s.csr.pollcnt.toNat + 4 := by
      cases hrx : s.csr.rxvalid with
      | false => exact (stepsLeft_polling (setState St.awaiting s) rfl hrx).le
      | true =>
        exact (stepsLeft_replied (setState St.awaiting s) rfl hrx).trans_le (Nat.le_add_left _ _)
    rw [stepsLeft_built s hstate]
    omega
  | failed r hstate =>
    rw [stepsLeft_ended _ (.inr rfl)]
    have hleft := four_le_stepsLeft s hstate
    omega
  | emptyPoll hstate hrx => exact stepsLeft_countPoll_lt s (hpolling hstate hrx) hstate hrx
  | budgetUsed hstate hrx =>
    rw [stepsLeft_ended _ (.inr rfl), stepsLeft_polling s hstate hrx]
    omega
  | accepted bytes hstate hrx =>
    have hlt := BitVec.lt_def.1 (hpolling hstate hrx)
    rw [stepsLeft_replied (pollAccept bytes s) hstate rfl, stepsLeft_polling s hstate hrx]
    omega
  | kissed hstate hrx =>
    rw [stepsLeft_ended _ (.inr rfl), stepsLeft_replied s hstate hrx]
    decide
  | loaded hstate hrx =>
    rw [stepsLeft_validated _ rfl, stepsLeft_replied s hstate hrx]
    decide
  | computed hstate =>
    rw [stepsLeft_offsetComputed _ rfl, stepsLeft_validated s hstate]
    split <;> decide
  | synced hstate hsynced =>
    have hstate' : (syncWith (localClockTerm s) s).csr.state = 4 := by rw [syncWith_csr, hstate]
    have hsynced' : (syncWith (localClockTerm s) s).csr.synced = true := by rw [syncWith_csr]
    rw [stepsLeft_offsetComputed _ hstate', hsynced', stepsLeft_offsetComputed s hstate, hsynced]
    decide
  | woken hstate hsynced =>
    rw [stepsLeft_ended _ (.inl rfl), stepsLeft_offsetComputed s hstate, hsynced]
    decide

theorem stepsLeft_eq_of_csr (s t : State) (h : t.csr = s.csr) : stepsLeft t = stepsLeft s := by
  rw [stepsLeft, h, stepsLeft]

/-- Settles O58: the enabled step is one of the engine's moves, and each lowers the bound. -/
theorem engineStepLowersTheBound : Obligations.EngineStepLowersTheBound := by
  refine ⟨fun s hbudget henabled => ?lowers, fun s hbudget hstate => ?start⟩
  case lowers =>
    obtain ⟨i, hi, hen⟩ := exists_enabled_of_engineEnabled s henabled
    obtain ⟨u, hu, hmove⟩ :=
      engineMove_of_enabled i s (isEngineStep_of_decodeSelector _ i hi) hen
    refine ⟨effectOf i s, ?_, ?_⟩
    · rw [engineTurn, hi]
      exact exec_of_enabled i s hen
    · rw [← stepsLeft_eq_of_csr s u hu.csr]
      exact engineMove_stepsLeft u _ (pollBudget_kept.same s u hu hbudget) hmove
  case start =>
    obtain ⟨hzero, -⟩ := hbudget.1 hstate
    simp [stepsLeft, hstate, hzero]

/-- In a busy state the selector enables a step (30_encoding.md R91). -/
theorem exists_selected_of_busy (s : State) (h : s.csr.state ∈ [1#3, 2#3, 3#3, 4#3]) :
    ∃ i, i.isEngineStep = true ∧ Selected i s := by
  simp only [List.mem_cons, List.not_mem_nil, or_false] at h
  rcases h with hstate | hstate | hstate | hstate
  · exact ⟨.send, rfl, hstate⟩
  · cases hrx : s.csr.rxvalid with
    | false => exact ⟨.poll, rfl, hstate, hrx⟩
    | true => exact ⟨.validate, rfl, hstate, hrx⟩
  · exact ⟨.compute, rfl, hstate⟩
  · cases hsynced : s.csr.synced with
    | false => exact ⟨.sync, rfl, hstate, hsynced⟩
    | true => exact ⟨.wake, rfl, hstate, hsynced⟩

theorem ticks_csr (n : Nat) (s : State) : (ticks n s).csr = s.csr := by rw [ticks_eq]

theorem ticks_ms (n : Nat) (s : State) :
    (ticks n s).env.ms = s.env.ms + BitVec.ofNat 32 n := by rw [ticks_eq]

/-- The clock does not change which step is selected. -/
theorem selected_ticks (i : Instr) (n : Nat) (s : State) (h : Selected i s) :
    Selected i (ticks n s) := by
  unfold Selected at *
  rw [ticks_csr]
  exact h

/-- At most one tick lets POLL go on (41_transport.md R139). -/
theorem exists_ticks_pollEnabled (s : State) (hstate : s.csr.state = 2)
    (hrx : s.csr.rxvalid = false) : ∃ n ≤ 1, pollEnabled (ticks n s) = true := by
  simp only [pollEnabled_iff, ticks_csr]
  by_cases hms : s.env.ms = s.csr.mspoll
  · exact ⟨1, le_rfl, hstate, hrx, .inr (hms ▸ clockTick_ms_ne s)⟩
  · exact ⟨0, Nat.zero_le 1, hstate, hrx, .inr hms⟩

/-- SLEEPMS ticks end the sleep (43_engine_compute_sync.md R190); those already elapsed count. -/
theorem exists_ticks_wakeEnabled (s : State) (hstate : s.csr.state = 4)
    (hsynced : s.csr.synced = true) :
    ∃ n ≤ s.csr.sleepms.toNat, wakeEnabled (ticks n s) = true := by
  have hsleep := s.csr.sleepms.isLt
  simp only [wakeEnabled_iff, ticks_csr, ticks_ms, elapsedMs]
  refine ⟨s.csr.sleepms.toNat - (s.env.ms - s.csr.mssync).toNat, Nat.sub_le _ _, hstate,
    hsynced, ?_⟩
  rcases Nat.lt_or_ge (s.env.ms - s.csr.mssync).toNat s.csr.sleepms.toNat with hlt | hge
  · rw [BitVec.sub_eq_add_neg, BitVec.add_assoc, BitVec.add_comm (BitVec.ofNat 32 _),
      ← BitVec.add_assoc, ← BitVec.sub_eq_add_neg, BitVec.toNat_add, BitVec.toNat_ofNat]
    omega
  · rw [Nat.sub_eq_zero_of_le hge]
    simpa using hge

/-- Settles O59: only POLL and WAKE wait on the clock. -/
theorem clockTicksLiftEveryHold : Obligations.ClockTicksLiftEveryHold := by
  intro s hbusy
  obtain ⟨i, hengine, hselected⟩ := exists_selected_of_busy s hbusy
  have hticks n : engineEnabled (ticks n s) = enabled i (ticks n s) :=
    engineEnabled_of_selected i _ (selected_ticks i n s hselected)
  simp only [hticks]
  cases i with
  | sec32 | sec64 | frac32 | frac64 | pack32 | pack64 | kisslk | gettime => cases hengine
  | send | validate | compute | sync =>
    exact ⟨0, Nat.zero_le _, by simpa [enabled, Selected, ticks] using hselected⟩
  | poll =>
    obtain ⟨n, hn, h⟩ := exists_ticks_pollEnabled s hselected.1 hselected.2
    exact ⟨n, hn.trans (Nat.le_max_left _ _), h⟩
  | wake =>
    obtain ⟨n, hn, h⟩ := exists_ticks_wakeEnabled s hselected.1 hselected.2
    exact ⟨n, hn.trans (Nat.le_max_right _ _), h⟩

/-! ### Nothing stops the block (93_implementation_defined.md, end of section 1) -/

theorem exec_next (i : Instr) (s : State) : ∃ t, exec i s = .next t := ⟨_, exec_eq i s⟩

/-- An accepted write answers, whatever its address and its command. -/
theorem acceptWrite_next (a : Addr) (d : Word) (s : State) : ∃ t, acceptWrite a d s = .next t := by
  unfold acceptWrite
  split
  · split
    · exact exec_next _ s
    · exact ⟨_, rfl⟩
  · exact ⟨_, rfl⟩

/-- The bus's turn answers, or refuses the oldest word, whose kind is not a transaction's. -/
theorem busTurn_answers (s : State) :
    (∃ t, busTurn s = .next t) ∨
      ∃ w ∈ s.host.queue, (busKind w ≠ 0x00#8 ∧ busKind w ≠ 0x01#8) ∧
        busTurn s = .refused (.notATransaction (busKind w)) := by
  unfold busTurn
  split
  · exact .inl ⟨_, rfl⟩
  · next w rest hqueue =>
    split
    · exact .inl ⟨_, rfl⟩
    · split
      · exact .inl (acceptWrite_next _ _ _)
      · exact .inl ⟨s, rfl⟩
    · next r herr => exact .inr ⟨w, by simp [hqueue], decodeBusWord_error w r herr, rfl⟩

/-- The host's turn answers, or refuses a word whose kind is not a transaction's. -/
theorem issueTurn_answers (w : BusWord) (s : State) :
    (∃ t, issueTurn w s = .next t) ∨
      ((busKind w ≠ 0x00#8 ∧ busKind w ≠ 0x01#8) ∧
        issueTurn w s = .refused (.notATransaction (busKind w))) := by
  unfold issueTurn
  split
  · exact .inl ⟨_, rfl⟩
  · next r herr => exact .inr ⟨decodeBusWord_error w r herr, rfl⟩

theorem engineTurn_next (s : State) : ∃ t, engineTurn s = .next t := by
  unfold engineTurn
  split
  · exact exec_next _ s
  · exact ⟨s, rfl⟩

/-- A step answers, or refuses a word that the host has issued or issues next and that is no
transaction. -/
theorem step_answers (s : State) :
    (∃ t, step s = .next t) ∨
      ∃ w, (w ∈ s.host.queue ∨ upcomingTurn s = .issue w) ∧
        (busKind w ≠ 0x00#8 ∧ busKind w ≠ 0x01#8) ∧
        step s = .refused (.notATransaction (busKind w)) := by
  rw [step]
  cases hturn : upcomingTurn s with
  | issue w =>
    rcases issueTurn_answers w (popTurn s) with hnext | ⟨hkind, hrefused⟩
    · exact .inl hnext
    · exact .inr ⟨w, .inr rfl, hkind, hrefused⟩
  | bus =>
    rcases busTurn_answers (popTurn s) with hnext | ⟨w, hw, hkind, hrefused⟩
    · exact .inl hnext
    · exact .inr ⟨w, .inl (by rwa [popTurn_host] at hw), hkind, hrefused⟩
  | engine => exact .inl (engineTurn_next _)
  | answer | tick | reset => exact .inl ⟨_, rfl⟩

/-- Settles O60: the only thing refused is a word that is no transaction. -/
theorem nothingStopsTheBlock : Obligations.NothingStopsTheBlock := by
  refine ⟨fun s hlegal => ?answers, fun s r h => ?refused, fun s i => exec_next i s⟩
  case answers =>
    obtain ⟨hqueued, hissued⟩ := hlegal
    rcases step_answers s with hnext | ⟨w, hw, ⟨hread, hwrite⟩, -⟩
    · exact hnext
    · exact ((hw.elim (hqueued w) (hissued w)).elim hread hwrite).elim
  case refused =>
    rcases step_answers s with ⟨t, hnext⟩ | ⟨w, -, hkind, hrefused⟩
    · rw [hnext] at h
      cases h
    · rw [hrefused, Host.Outcome.refused.injEq] at h
      exact ⟨busKind w, h.symm, hkind⟩

end Sys2Proof.Machine
end

section
/-! PROOF. Turns and the host's bus (00_scope.md R6, 10_state.md R21, R22, R30, R46, R47;
30_encoding.md R85, R87): O5 to O7, O9, O10, O12 to O15; how an instruction is placed (log 16), O8;
`raise Failed`, O42. -/

namespace Sys2Proof.Machine

open Sys2Proof.Safety

/-! ### The scheduled turn (log 1) -/

/-- `s` with the turns `ts` scheduled. -/
def withTurns (ts : List Turn) (s : State) : State :=
  { s with sched := { s.sched with turns := ts } }

theorem popTurn_of_scheduled (s : State) (t : Turn) (ts : List Turn)
    (h : s.sched.turns = t :: ts) : popTurn s = withTurns ts s := by
  rw [popTurn, h]
  rfl

theorem upcomingTurn_of_scheduled (s : State) (t : Turn) (ts : List Turn)
    (h : s.sched.turns = t :: ts) : upcomingTurn s = t := by
  rw [upcomingTurn, h]

/-- A step with a scheduled turn is that turn. -/
theorem step_of_scheduled (s : State) (t : Turn) (ts : List Turn) (h : s.sched.turns = t :: ts) :
    step s = takeTurn t (withTurns ts s) := by
  rw [step, upcomingTurn_of_scheduled s t ts h, popTurn_of_scheduled s t ts h]

/-- Settles O5. -/
theorem stepTakesUpcomingTurn : Obligations.StepTakesUpcomingTurn := by
  refine ⟨step_of_scheduled, fun s h => ?_⟩
  rw [step, upcomingTurn, popTurn, h]

/-- Settles O10. -/
theorem clockTickAdvancesMs : Obligations.ClockTickAdvancesMs := by
  refine fun s => ⟨s.env.ms + 1, rfl, ?_⟩
  rw [BitVec.toNat_add]
  rfl

/-- Settles O7. -/
theorem engineStepRunsSelectedStep : Obligations.EngineStepRunsSelectedStep := by
  intro s ts i hturns hsel
  have hselector : decodeSelector (withTurns ts s).selector = .ok i := hsel
  rw [step_of_scheduled s .engine ts hturns, takeTurn, engineTurn, hselector]
  rfl

/-! ### The bus's turn -/

/-- `s` after its scheduled bus turn took the oldest transaction. -/
def served (ts : List Turn) (rest : List BusWord) (s : State) : State :=
  { s with
    sched := { s.sched with turns := ts }
    host := { s.host with queue := rest } }

section BusTurn
variable (s : State) (ts : List Turn) (w : BusWord) (rest : List BusWord)

/-- A read is served in every state (10_state.md R47). -/
theorem step_bus_read (a : Addr) (hturns : s.sched.turns = .bus :: ts)
    (hqueue : s.host.queue = w :: rest) (hword : decodeBusWord w = .ok (.read a)) :
    step s = .next { s with
      sched := { s.sched with turns := ts }
      host := { queue := rest, rdata := some (hostRead s a) } } := by
  have hqueue' : (withTurns ts s).host.queue = w :: rest := hqueue
  rw [step_of_scheduled s .bus ts hturns, takeTurn, busTurn, hqueue']
  dsimp only
  rw [hword]
  rfl

/-- A write is performed in Idle, Done and Failed (10_state.md R47). -/
theorem step_bus_write (a : Addr) (d : Word) (hturns : s.sched.turns = .bus :: ts)
    (hqueue : s.host.queue = w :: rest) (hword : decodeBusWord w = .ok (.write a d))
    (hacc : s.accepting = true) : step s = acceptWrite a d (served ts rest s) := by
  have hqueue' : (withTurns ts s).host.queue = w :: rest := hqueue
  have hacc' : (withTurns ts s).accepting = true := hacc
  rw [step_of_scheduled s .bus ts hturns, takeTurn, busTurn, hqueue']
  dsimp only
  rw [hword]
  dsimp only
  rw [if_pos hacc']
  rfl

/-- A write is held elsewhere (10_state.md R47). -/
theorem step_bus_held (a : Addr) (d : Word) (hturns : s.sched.turns = .bus :: ts)
    (hqueue : s.host.queue = w :: rest) (hword : decodeBusWord w = .ok (.write a d))
    (hacc : s.accepting = false) : step s = .next (withTurns ts s) := by
  have hqueue' : (withTurns ts s).host.queue = w :: rest := hqueue
  have hacc' : ¬ (withTurns ts s).accepting = true := by
    rw [Bool.not_eq_true]
    exact hacc
  rw [step_of_scheduled s .bus ts hturns, takeTurn, busTurn, hqueue']
  dsimp only
  rw [hword]
  dsimp only
  rw [if_neg hacc']
  rfl

end BusTurn

/-- A write to CMD runs the command its low byte decodes to (30_encoding.md R85). -/
theorem acceptWrite_command (d : Word) (i : Instr) (s : State)
    (h : decodeCommand (commandByte d) = .ok i) : acceptWrite cmdAddr d s = exec i s := by
  rw [acceptWrite, if_pos rfl, h]

/-- Settles O6. -/
theorem busStepRunsDecodedCommand : Obligations.BusStepRunsDecodedCommand := by
  intro s ts w rest d i hturns hqueue hword hcommand hstate
  rw [step_bus_write s ts w rest _ d hturns hqueue hword (accepting_of_mem s hstate),
    acceptWrite_command d i _ hcommand]
  rfl

/-- A byte that is none of the eight commands decodes to no instruction (R87). -/
theorem decodeCommand_reserved (c : Byte) (h : c ∉ commandMap.map Prod.fst) :
    decodeCommand c = .error (.reservedCommand c) := by
  simp only [commandMap, List.map_cons, List.map_nil, List.mem_cons, List.not_mem_nil, or_false,
    not_or] at h
  simp [decodeCommand, h]

/-- Settles O9. -/
theorem reservedCommandIsIgnored : Obligations.ReservedCommandIsIgnored := by
  intro s ts w rest d hturns hqueue hword hreserved hstate
  rw [step_bus_write s ts w rest _ d hturns hqueue hword (accepting_of_mem s hstate), acceptWrite,
    if_pos rfl, commandByte, decodeCommand_reserved _ hreserved]
  rfl

/-- Settles O12. -/
theorem hostReadIsServedInEveryState : Obligations.HostReadIsServedInEveryState :=
  fun s ts w rest a => step_bus_read s ts w rest a

/-- A store writes the one register that has the address, if the host may write it (10_state.md R22,
R30). -/
theorem hostStore_eq (a : Addr) (d : Word) (s : State) : hostStore a d s = { s with
    x := { s.x with
      opa := if a = 0x00#8 then d else s.x.opa
      ops := if a = 0x01#8 then d else s.x.ops
      opf := if a = 0x02#8 then d else s.x.opf
      t1 := if a = 0x04#8 then d else s.x.t1 }
    csr := { s.csr with
      timeout := if a = 0x13#8 then d.extractLsb' 0 32 else s.csr.timeout } } := by
  have haddr (b : Addr) : a = b ↔ a.toNat = b.toNat := BitVec.toNat_inj.symm
  simp only [haddr]
  unfold hostStore
  split <;> simp_all

/-- Settles O14. -/
theorem hostWriteAddressMap : Obligations.HostWriteAddressMap := by
  intro s ts w rest a d hturns hqueue hword hstate ha
  rw [step_bus_write s ts w rest a d hturns hqueue hword (accepting_of_mem s hstate), acceptWrite,
    if_neg ha, hostStore_eq]
  rfl

/-- Settles O15: the write stays the oldest, so nothing behind it is served. -/
theorem hostWriteIsHeldWhileBusy : Obligations.HostWriteIsHeldWhileBusy := by
  intro s ts w rest a d hturns hqueue hword hbusy
  have hheld := step_bus_held s ts w rest a d hturns hqueue hword (not_accepting_of_mem s hbusy)
  refine ⟨hheld, fun r later b hrest _ => ⟨withTurns ts s, hheld, ?_, rfl⟩⟩
  rw [← hrest]
  exact hqueue

/-! ### The address map of reads (R21, R30, R33, R46) -/

/-- A read of a buffer byte (R46). -/
theorem hostRead_buffer (s : State) (n : Nat) (hn : n < 2 ^ 8) (hbuf : inBuffer n = true) :
    hostRead s (BitVec.ofNat 8 n) = (memRead8 s.mem n).setWidth 64 := by
  have htoNat : (BitVec.ofNat 8 n).toNat = n := by
    rw [BitVec.toNat_ofNat, Nat.mod_eq_of_lt hn]
  rw [hostRead, htoNat, if_pos hbuf]

/-- Addresses with no register read zero: `x[15]`, the two unassigned CSRs, CMD, and all from 0x20
on (R21, R30, R39). -/
theorem readRegister_reserved (s : State) (a : Nat)
    (h : a = 0x0F ∨ a = 0x1D ∨ a = 0x1E ∨ a = 0x1F ∨ 0x20 ≤ a) : readRegister s a = 0 := by
  rcases h with rfl | rfl | rfl | rfl | h
  · rfl
  · rfl
  · rfl
  · rfl
  · obtain ⟨n, rfl⟩ := Nat.exists_eq_add_of_le' h
    rfl

/-- FLAGS is RXVALID, SYNCED and BUSY from bit 0 on (R33). -/
theorem flags_toNat (s : State) : s.flags.toNat = s.csr.rxvalid.toNat + 2 * s.csr.synced.toNat +
    (if s.csr.state ∈ [1#3, 2#3, 3#3, 4#3] then 4 else 0) := by
  have hbusy : s.busy = true ↔ s.csr.state ∈ [1#3, 2#3, 3#3, 4#3] := by
    rw [busy_iff]
    simp
  rw [← if_congr hbusy rfl rfl, State.flags]
  cases s.busy <;> cases s.csr.synced <;> cases s.csr.rxvalid <;> rfl

/-- Settles O13. -/
theorem hostReadAddressMap : Obligations.HostReadAddressMap := by
  refine fun s => ⟨rfl, rfl, rfl, rfl, rfl, ?flags, fun k hk => ⟨?tx, ?rx⟩, fun a ha => ?reserved⟩
  case flags =>
    have hflags : hostRead s 0x12#8 = s.flags.setWidth 64 := rfl
    rw [hflags, BitVec.toNat_setWidth_of_le (by decide), flags_toNat]
  case tx => exact hostRead_buffer s _ (by omega) (inBuffer_tx k hk)
  case rx => exact hostRead_buffer s _ (by omega) (inBuffer_rx k hk)
  case reserved =>
    simp only [← BitVec.toNat_inj, BitVec.le_def, BitVec.toNat_ofNat, Nat.reducePow,
      Nat.reduceMod] at ha
    have hout : inBuffer a.toNat = false := by
      rw [← Bool.not_eq_true, inBuffer_iff]
      omega
    rw [hostRead_of_not_inBuffer s a hout, readRegister_reserved s _ (by omega)]

/-! ### Placing an instruction (log 16) -/

theorem toOption_eq_some {r : Except Reject Instr} {i : Instr} :
    r.toOption = some i ↔ r = .ok i := by
  cases r <;> simp [Except.toOption]

/-- A bus word placed runs its command in the state it was placed in, or in Idle where that state
accepts no command. -/
theorem step_placeBusWord (s : State) (word : BusWord) (d : Word) (i : Instr)
    (hword : decodeBusWord word = .ok (.write cmdAddr d))
    (hcommand : decodeCommand (commandByte d) = .ok i) :
    step (placeBusWord word s) = exec i { s with
      csr := { s.csr with state := if s.accepting then s.csr.state else St.idle } } := by
  have hacc : (placeBusWord word s).accepting = true := by
    have hcsr : (placeBusWord word s).csr.state =
      if s.accepting then s.csr.state else St.idle := rfl
    rw [accepting_iff, hcsr]
    split
    · next h => exact (accepting_iff s).1 h
    · exact .inl rfl
  rw [step_bus_write (placeBusWord word s) s.sched.turns word s.host.queue cmdAddr d rfl rfl hword
    hacc, acceptWrite_command d i _ hcommand]
  rfl

/-- What placing a command keeps: all but STATE, and STATE too where it accepts commands. -/
theorem idleUnlessAccepting_spec (s : State) (i : Instr) (hi : i.isEngineStep = false) :
    ∀ u, u = { s with
      csr := { s.csr with state := if s.accepting then s.csr.state else St.idle } } →
    i.isEngineStep = false ∧ u.csr.state ∈ [0#3, 5#3, 6#3] ∧
      u = { s with csr := { s.csr with state := u.csr.state } } ∧
      (s.csr.state ∈ [0#3, 5#3, 6#3] → u = s) := by
  rintro u rfl
  refine ⟨hi, ?_, rfl, fun hstate => ?_⟩
  · dsimp only
    split
    · next h => exact mem_of_accepting s h
    · exact List.mem_cons_self
  · rw [accepting_of_mem s hstate, if_pos rfl]

/-- The engine where its selector is `sel`; the schedule as it was. -/
def engineAt (sel : BitVec 5) (s : State) : State :=
  { s with csr := { s.csr with
      state := sel.extractLsb' 0 3, rxvalid := sel.getLsbD 3, synced := sel.getLsbD 4 } }

theorem engineAt_selector (sel : BitVec 5) (s : State) : (engineAt sel s).selector = sel := by
  have hfields : ∀ sel : BitVec 5,
      selectorOf (sel.getLsbD 4) (sel.getLsbD 3) (sel.extractLsb' 0 3) = sel := by decide
  exact hfields sel

theorem setSelector_eq (sel : BitVec 5) (s : State) :
    setSelector sel s = withTurns (.engine :: s.sched.turns) (engineAt sel s) := rfl

/-- The schedule plays no part in lifting a hold. -/
theorem liftHold_withTurns (ts : List Turn) (s : State) :
    liftHold (withTurns ts s) = withTurns ts (liftHold s) := by
  have hselector : (withTurns ts s).selector = s.selector := rfl
  have hpoll : pollEnabled (withTurns ts s) = pollEnabled s := rfl
  have hwake : wakeEnabled (withTurns ts s) = wakeEnabled s := rfl
  rw [liftHold, liftHold, hselector, hpoll, hwake]
  cases decodeSelector s.selector with
  | error r => rfl
  | ok i => cases i <;> dsimp only <;> split_ifs <;> rfl

/-- What lifting a hold changes: MSPOLL for POLL, MSSYNC for WAKE, and the step then is not held. -/
theorem liftHold_spec (i : Instr) (s : State) (hi : Selected i s) :
    Selected i (liftHold s) ∧ enabled i (liftHold s) = true ∧
      liftHold s = { s with csr := { s.csr with
        mspoll := (liftHold s).csr.mspoll, mssync := (liftHold s).csr.mssync } } ∧
      (i ≠ .poll → (liftHold s).csr.mspoll = s.csr.mspoll) ∧
      (i ≠ .wake → (liftHold s).csr.mssync = s.csr.mssync) := by
  rw [liftHold, (decodeSelector_selector_iff i s).2 hi]
  cases i with
  | sec32 | sec64 | frac32 | frac64 | pack32 | pack64 | kisslk | gettime => cases hi
  | send | validate | compute | sync =>
    exact ⟨hi, by simpa [enabled, Selected] using hi, rfl, fun _ => rfl, fun _ => rfl⟩
  | poll =>
    dsimp only
    split
    · next h => exact ⟨hi, h, rfl, fun _ => rfl, fun _ => rfl⟩
    · have hpast : s.env.ms ≠ s.env.ms - 1 := by
        have hone : BitVec.toNat (1 : Half) = 1 := rfl
        rw [ne_eq, ← BitVec.toNat_inj, BitVec.toNat_sub, hone]
        omega
      exact ⟨hi, (pollEnabled_iff _).2 ⟨hi.1, hi.2, .inr hpast⟩, rfl,
        fun hne => absurd rfl hne, fun _ => rfl⟩
  | wake =>
    dsimp only
    split
    · next h => exact ⟨hi, h, rfl, fun _ => rfl, fun _ => rfl⟩
    · refine ⟨hi, (wakeEnabled_iff _).2 ⟨hi.1, hi.2, ?_⟩, rfl,
        fun _ => rfl, fun hne => absurd rfl hne⟩
      rw [elapsedMs, sub_sub_cancel]

/-- A placed selector runs its step where the engine was put and the hold lifted. -/
theorem step_placeSelector (sel : BitVec 5) (s : State) (i : Instr)
    (h : decodeSelector sel = .ok i) :
    step (placeSelector sel s) = exec i (liftHold (engineAt sel s)) := by
  have hplaced : placeSelector sel s =
      withTurns (.engine :: s.sched.turns) (liftHold (engineAt sel s)) := by
    rw [placeSelector, setSelector_eq, liftHold_withTurns]
  have hselected : Selected i (engineAt sel s) := by
    rw [← decodeSelector_selector_iff, engineAt_selector]
    exact h
  obtain ⟨hlifted, -, hframe, -, -⟩ := liftHold_spec i _ hselected
  have hback : withTurns s.sched.turns (liftHold (engineAt sel s)) = liftHold (engineAt sel s) := by
    rw [hframe]
    rfl
  have hpopped : withTurns s.sched.turns (placeSelector sel s) = liftHold (engineAt sel s) := by
    rw [hplaced]
    exact hback
  rw [step_of_scheduled (placeSelector sel s) .engine s.sched.turns (by rw [hplaced]; rfl), hpopped,
    takeTurn, engineTurn, (decodeSelector_selector_iff i _).2 hlifted]

/-- Settles O8, by the space the table word belongs to. -/
theorem placedInstructionRunsNext : Obligations.PlacedInstructionRunsNext := by
  intro s nbits w i h
  rw [decodeTableWord] at h
  rw [State.withFetchWord]
  cases hword : tableWord nbits w with
  | bus word =>
    rw [hword] at h
    obtain ⟨t, ht, hissue⟩ :
        ∃ t, decodeBusWord word = .ok t ∧ decodeTransaction t = some i := by
      dsimp only at h
      split at h
      · next t ht => exact ⟨t, ht, h⟩
      · cases h
    obtain ⟨hkind, haddr, hcommand⟩ := (issues_command_iff word i).1 ⟨t, ht, hissue⟩
    have hwrite := (decodeBusWord_write_iff word cmdAddr (busData word)).2 ⟨hkind, haddr, rfl⟩
    exact ⟨_, step_placeBusWord s word _ i hwrite hcommand, .inr
      (idleUnlessAccepting_spec s i (isEngineStep_of_decodeCommand _ i hcommand) _ rfl)⟩
  | command c =>
    rw [hword] at h
    have hcommand : decodeCommand c = .ok i := toOption_eq_some.1 h
    have hwrite : decodeBusWord (encodeCommandWord c) = .ok (.write cmdAddr (c.setWidth 64)) :=
      decodeBusWord_encodeTransaction _
    have hbyte : commandByte (c.setWidth 64) = c := by
      rw [commandByte, BitVec.extractLsb'_setWidth_of_le (by decide)]
      exact BitVec.extractLsb'_eq_self
    exact ⟨_, step_placeBusWord s _ _ i hwrite (hbyte.symm ▸ hcommand), .inr
      (idleUnlessAccepting_spec s i (isEngineStep_of_decodeCommand _ i hcommand) _ rfl)⟩
  | selector sel =>
    rw [hword] at h
    have hsel : decodeSelector sel = .ok i := toOption_eq_some.1 h
    have hselected : Selected i (engineAt sel s) := by
      rw [← decodeSelector_selector_iff, engineAt_selector]
      exact hsel
    obtain ⟨hlifted, henabled, hframe, hmspoll, hmssync⟩ := liftHold_spec i _ hselected
    refine ⟨_, step_placeSelector sel s i hsel, .inl
      ⟨isEngineStep_of_decodeSelector sel i hsel, (decodeSelector_selector_iff i _).2 hlifted, ?_,
        ?_, hmspoll, hmssync⟩⟩
    · rw [engineEnabled_of_selected i _ hlifted]
      exact henabled
    · rw [hframe]
      rfl

/-! ### Failures (60_exceptions.md R241, R244) -/

/-- Settles O42. -/
theorem raiseFailedWritesErrAndState : Obligations.RaiseFailedWritesErrAndState :=
  ⟨fun _ _ => rfl, rfl⟩

end Sys2Proof.Machine
end

section
/-! PROOF. KISSLK's lookup (44_kiss.md R200 to R203), O24; VALIDATE's checks in their order
(42_engine_request_validate.md R160 to R167), O33, and the bytes it looks at (R168), O35. -/

namespace Sys2Proof.Machine

/-! ### The lookup (44_kiss.md R202) -/

/-- The lookup finds an entry's index, counting from `i`, or 14 where no entry is the code. -/
theorem kissFind_spec (c : Half) (table : List Half) (i : Nat) :
    (∃ n, table[n]? = some c ∧ kissFind c i table = BitVec.ofNat 4 (i + n)) ∨
      (c ∉ table ∧ kissFind c i table = 14) := by
  induction table generalizing i with
  | nil => exact .inr ⟨List.not_mem_nil, rfl⟩
  | cons code table ih =>
    rw [kissFind]
    split
    · next heq => exact .inl ⟨0, by rw [heq]; rfl, rfl⟩
    · next hne =>
      rcases ih (i + 1) with ⟨n, hn, hfind⟩ | ⟨hnot, hfind⟩
      · refine .inl ⟨n + 1, by rw [List.getElem?_cons_succ, hn], ?_⟩
        rw [hfind, Nat.add_right_comm, Nat.add_assoc]
      · refine .inr ⟨?_, hfind⟩
        rw [List.mem_cons, not_or]
        exact ⟨Ne.symm hne, hnot⟩

theorem kissTable_length : kissTable.length = 14 := rfl

theorem kissTable_nodup : kissTable.Nodup := by decide

/-- An entry of the table stands at one index only. -/
theorem kissTable_index_unique (c : Half) (n n' : Nat) (h : kissTable[n]? = some c)
    (h' : kissTable[n']? = some c) : n = n' := by
  obtain ⟨hlt, -⟩ := List.getElem?_eq_some_iff.1 h
  exact (List.getElem?_inj hlt kissTable_nodup).1 (h.trans h'.symm)

/-- Settles O24: the lookup's index, and no other entry is the code. -/
theorem kisslkFindsTheCode : Obligations.KisslkFindsTheCode := by
  refine ⟨rfl, kissTable_length, kissTable_nodup, by simp [kissTable], fun s hstate =>
    ⟨(kissLookup (opa32 s)).setWidth 64, exec_of_enabled .kisslk s (accepting_of_mem s hstate), ?_⟩⟩
  rw [← opa32]
  rcases kissFind_spec (opa32 s) kissTable 0 with ⟨n, hn, hfind⟩ | ⟨hnot, hfind⟩
  · obtain ⟨hlt, -⟩ := List.getElem?_eq_some_iff.1 hn
    rw [kissTable_length] at hlt
    have hindex : ((kissLookup (opa32 s)).setWidth 64).toNat = n := by
      rw [BitVec.toNat_setWidth_of_le (by decide), kissLookup, kissLookupIn, hfind,
        BitVec.toNat_ofNat, Nat.zero_add, Nat.mod_eq_of_lt (by omega)]
    rw [hindex]
    exact ⟨.inl ⟨hlt, hn⟩, fun n' hn' => kissTable_index_unique _ n' n hn' hn⟩
  · have hnone : (kissLookup (opa32 s)).setWidth 64 = 14 := by
      rw [kissLookup, kissLookupIn, hfind]
      rfl
    exact ⟨.inr ⟨hnone, hnot⟩, fun n hn => absurd (List.mem_of_getElem? hn) hnot⟩

/-! ### The six checks (42_engine_request_validate.md R160 to R167) -/

/-- With a reply there, VALIDATE runs its checks (R160). -/
theorem exec_validate (s : State) (hstate : s.csr.state = 2) (hrx : s.csr.rxvalid = true) :
    exec .validate s = .next (validateWith kissTable s) :=
  exec_of_enabled .validate s (by simp [enabled, hstate, hrx])

/-- The header byte's fields by shift and mask (30_encoding.md R96). -/
theorem hdrMode_eq_iff (b : Byte) : hdrMode b = modeServer ↔ b &&& 7 = 4 := by
  revert b
  decide

theorem hdrVn_eq_iff (b : Byte) : hdrVn b = ntpVersion ↔ b >>> 3 &&& 7 = 4 := by
  revert b
  decide

theorem hdrLi_eq_iff (b : Byte) : hdrLi b = liAlarm ↔ b >>> 6 = 3 := by
  revert b
  decide

/-- The failure with `code`; code 11 leaves the kiss record (R165). -/
def failedCheck (code : BitVec 4) (s : State) : State :=
  { s with csr := { s.csr with
      err := code, state := 6
      kiss := if code = 11 then memRead32 s.mem 204 else s.csr.kiss
      kissidx := if code = 11 then kissLookup (memRead32 s.mem 204) else s.csr.kissidx } }

/-- The first of `checks` that holds reports its code; a reply that passes them all is loaded. -/
def afterChecks (checks : List (Bool × BitVec 4)) (s : State) : State :=
  match checks.find? (fun check => check.1) with
  | some (_, code) => failedCheck code s
  | none => loadReply s

theorem afterChecks_nil (s : State) : afterChecks [] s = loadReply s := rfl

theorem afterChecks_cons (p : Prop) [Decidable p] (code : BitVec 4)
    (checks : List (Bool × BitVec 4)) (s : State) :
    afterChecks ((decide p, code) :: checks) s =
      if p then failedCheck code s else afterChecks checks s := by
  by_cases hp : p
  · rw [if_pos hp, afterChecks, List.find?_cons_of_pos (by simpa using hp)]
  · rw [if_neg hp, afterChecks, List.find?_cons_of_neg (by simpa using hp), ← afterChecks]

/-- The six checks a to f as a list, in their order (R160). -/
theorem validateWith_eq_afterChecks (s : State) : validateWith kissTable s = afterChecks
    [(decide (memRead8 s.mem 192 &&& 7 ≠ 4), 7#4),
      (decide (memRead8 s.mem 192 >>> 3 &&& 7 ≠ 4), 8#4),
      (decide (memRead8 s.mem 192 >>> 6 = 3), 9#4),
      (decide (15 < memRead8 s.mem 193), 10#4),
      (decide (memRead8 s.mem 193 = 0), 11#4),
      (decide (memRead64 s.mem 216 ≠ s.x.t1), 12#4)] s := by
  rw [validateWith]
  simp only [afterChecks_cons, afterChecks_nil, ne_eq, hdrMode_eq_iff, hdrVn_eq_iff, hdrLi_eq_iff]
  rfl

/-- Settles O33. -/
theorem validateReportsFirstFailure : Obligations.ValidateReportsFirstFailure := by
  intro s hstate hrx
  have hexec := exec_validate s hstate hrx
  rw [validateWith_eq_afterChecks, afterChecks] at hexec
  dsimp only
  split
  · next hfind =>
    rw [hfind] at hexec
    exact hexec
  · next hfind =>
    rw [hfind] at hexec
    exact hexec

/-! ### The bytes examined (R168) -/

theorem memRead32_congr (m m' : Memory) (a : Nat)
    (h : ∀ i < 4, memRead8 m (a + i) = memRead8 m' (a + i)) : memRead32 m a = memRead32 m' a := by
  have hfirst : memRead8 m a = memRead8 m' a := h 0 (by decide)
  rw [memRead32, memRead32, hfirst, h 1 (by decide), h 2 (by decide), h 3 (by decide)]

theorem memRead64_congr (m m' : Memory) (a : Nat)
    (h : ∀ i < 8, memRead8 m (a + i) = memRead8 m' (a + i)) : memRead64 m a = memRead64 m' a := by
  refine word_eq_of_bytes _ _ fun i hi => ?_
  rw [memRead64_byte m a i hi, memRead64_byte m' a i hi, h i hi]

/-- The checks write no buffer. -/
theorem validateWith_mem (table : List Half) (s : State) : (validateWith table s).mem = s.mem := by
  obtain ⟨r, -, h⟩ | ⟨-, h⟩ | ⟨-, h⟩ := validateWith_cases table s <;> simp [h]

/-- What the checks make of the registers and the CSRs depends on these fields of the reply only. -/
theorem validateWith_congr (table : List Half) (s s' : State) (hx : s'.x = s.x)
    (hcsr : s'.csr = s.csr) (hheader : replyHeader s' = replyHeader s)
    (hstratum : replyStratum s' = replyStratum s)
    (hrefId : replyStratum s = 0 → replyRefId s' = replyRefId s)
    (horg : replyOrg s' = replyOrg s) (hrec : replyRec s' = replyRec s)
    (hxmt : replyXmt s' = replyXmt s) :
    (validateWith table s').x = (validateWith table s).x ∧
      (validateWith table s').csr = (validateWith table s).csr := by
  rw [validateWith, validateWith, hheader, hstratum, horg, hx]
  split_ifs with mode version leap stratum kiss originate
  case pos | pos | pos | pos => simp [raiseFailed, hx, hcsr]
  · simp [raiseFailed, recordKiss, hx, hcsr, hrefId kiss]
  · simp [raiseFailed, hx, hcsr]
  · simp [loadReply, hx, hcsr, hrec, hxmt]

/-- Settles O35: those fields are made of the listed bytes. -/
theorem validateExaminesNoOtherByte : Obligations.ValidateExaminesNoOtherByte := by
  intro s m hstate hrx hsame
  have hfield (a : Nat) (ha : 24 ≤ a) (ha' : a + 8 ≤ 48) :
      memRead64 m (192 + a) = memRead64 s.mem (192 + a) := by
    refine memRead64_congr _ _ _ fun i hi => ?_
    rw [Nat.add_assoc]
    exact hsame (a + i) (by omega) (by omega)
  obtain ⟨hx, hcsr⟩ := validateWith_congr kissTable s { s with mem := m } rfl rfl
    (hsame 0 (by decide) (.inl rfl)) (hsame 1 (by decide) (.inr (.inl rfl)))
    (fun hzero => memRead32_congr _ _ _ fun i hi => by
      rw [Nat.add_assoc]
      exact hsame (12 + i) (by omega) (.inr (.inr (.inr ⟨hzero, by omega, by omega⟩))))
    (hfield 24 (by decide) (by decide)) (hfield 32 (by decide) (by decide))
    (hfield 40 (by decide) (by decide))
  exact ⟨_, _, exec_validate s hstate hrx, exec_validate { s with mem := m } hstate hrx, hx, hcsr,
    validateWith_mem _ _, validateWith_mem _ _⟩

end Sys2Proof.Machine
end

section
/-! PROOF. Binary64 arithmetic (45_binary64.md R215 to R217, R220): each operation on finite
patterns is the exact one in units rounded once, O44; the floor and the fractional part, O45; the
conversion to an integer field and PACK's two fields (40_codec.md R116 to R118), O21 and O22. -/

namespace Sys2Proof.Machine

/-! ### Patterns by their fields (R210) -/

theorem f64Sign_iff (p : Word) : f64Sign p = true ↔ 2 ^ 63 ≤ p.toNat := by
  have hmsb : f64Sign p = p.msb := (BitVec.msb_eq_getLsbD_last p).symm
  rw [hmsb, BitVec.msb_eq_decide, decide_eq_true_iff]

/-- A pattern is its sign, its exponent and its fraction. -/
theorem f64_toNat (p : Word) :
    p.toNat = (if f64Sign p then 2 ^ 63 else 0) + (f64Exp p * 2 ^ 52 + f64Frac p) := by
  have hp := p.isLt
  rw [if_congr (f64Sign_iff p) rfl rfl, f64Exp, f64Frac, BitVec.extractLsb'_toNat,
    BitVec.extractLsb'_toNat, Nat.shiftRight_zero, Nat.shiftRight_eq_div_pow]
  split <;> omega

/-- Equal signs and fields, equal patterns. -/
theorem f64_ext (p q : Word) (hsign : f64Sign p = f64Sign q) (hexp : f64Exp p = f64Exp q)
    (hfrac : f64Frac p = f64Frac q) : p = q := by
  rw [← BitVec.toNat_inj, f64_toNat p, f64_toNat q, hsign, hexp, hfrac]

theorem f64Mag_eq_zero_iff (p : Word) : f64Mag p = 0 ↔ f64Exp p = 0 ∧ f64Frac p = 0 := by
  rw [f64Mag]
  split
  · next h => simp [h]
  · next h =>
    have hpos : 0 < 2 ^ (f64Exp p - 1) := Nat.two_pow_pos _
    rw [Nat.mul_eq_zero]
    omega

/-- Zero has two patterns, one for each sign (R210). -/
theorem eq_zero_of_mag (p : Word) (hmag : f64Mag p = 0) : p = f64Of (f64Sign p) 0 := by
  obtain ⟨hexp, hfrac⟩ := (f64Mag_eq_zero_iff p).1 hmag
  refine f64_ext _ _ (f64Sign_f64Of _ 0 (by decide)).symm ?_ ?_
  · rw [hexp, f64Exp_f64Of _ 0 (by decide), Nat.zero_div]
  · rw [hfrac, f64Frac_f64Of _ 0 (by decide), Nat.zero_mod]

theorem f64Finite_iff (p : Word) : f64Finite p = true ↔ f64Exp p ≠ 2047 := by
  rw [f64Finite, bne_iff_ne]

/-- A finite magnitude is a number of at most 53 bits at a power of two. -/
theorem exists_significand (p : Word) (h : f64Finite p = true) :
    ∃ m j, m < 2 ^ 53 ∧ j ≤ 2045 ∧ f64Mag p = m * 2 ^ j := by
  have hexp : f64Exp p < 2048 := BitVec.isLt _
  have hfrac := f64Frac_lt p
  rw [f64Finite_iff] at h
  rw [f64Mag]
  split
  · exact ⟨f64Frac p, 0, by omega, by omega, by rw [pow_zero, Nat.mul_one]⟩
  · exact ⟨2 ^ 52 + f64Frac p, f64Exp p - 1, by omega, by omega, rfl⟩

theorem natAbs_f64Units (p : Word) : (f64Units p).natAbs = f64Mag p := by
  rw [f64Units]
  split <;> simp

theorem withSign_natAbs (n : Int) : withSign (decide (n < 0)) n.natAbs = n := by
  rw [withSign]
  split
  · next h =>
    have hneg : n < 0 := by simpa using h
    omega
  · next h =>
    have hnonneg : ¬ n < 0 := by simpa using h
    omega

/-- A pattern given by sign and magnitude, in units. -/
theorem F64Is.units {p : Word} {neg : Bool} {mag : Nat} (h : F64Is p neg mag) :
    f64Units p = withSign neg mag := by
  rw [f64Units_eq_withSign, h.sign, h.mag_eq]

theorem zero_is (neg : Bool) : F64Is (f64Of neg 0) neg 0 where
  finite := f64Finite_f64Of neg 0 (by decide)
  sign := f64Sign_f64Of neg 0 (by decide)
  mag_eq := (f64Mag_eq_zero_iff _).2
    ⟨by rw [f64Exp_f64Of neg 0 (by decide), Nat.zero_div],
      by rw [f64Frac_f64Of neg 0 (by decide), Nat.zero_mod]⟩

/-- The result has the sign asked for, also where it overflows (R211). -/
theorem f64Sign_f64RN (neg : Bool) (num den : Nat) : f64Sign (f64RN neg num den) = neg := by
  have hlow : rnLow num den ≤ f64InfLow := Nat.min_le_right _ _
  exact f64Sign_f64Of neg _ (hlow.trans_lt (by norm_num [f64InfLow]))

/-! ### The opposite sign -/

theorem f64Exp_f64Neg (p : Word) : f64Exp (f64Neg p) = f64Exp p := by
  have hbits : (0x8000000000000000#64).extractLsb' 52 11 = 0#11 := by decide
  rw [f64Exp, f64Neg, BitVec.extractLsb'_xor, hbits, BitVec.xor_zero, f64Exp]

theorem f64Frac_f64Neg (p : Word) : f64Frac (f64Neg p) = f64Frac p := by
  have hbits : (0x8000000000000000#64).extractLsb' 0 52 = 0#52 := by decide
  rw [f64Frac, f64Neg, BitVec.extractLsb'_xor, hbits, BitVec.xor_zero, f64Frac]

theorem f64Sign_f64Neg (p : Word) : f64Sign (f64Neg p) = !f64Sign p := by
  have hbit : (0x8000000000000000#64).getLsbD 63 = true := by decide
  rw [f64Sign, f64Neg, BitVec.getLsbD_xor, hbit, Bool.xor_true, f64Sign]

theorem f64Finite_f64Neg (p : Word) : f64Finite (f64Neg p) = f64Finite p := by
  rw [f64Finite, f64Exp_f64Neg, f64Finite]

theorem f64Mag_f64Neg (p : Word) : f64Mag (f64Neg p) = f64Mag p := by
  rw [f64Mag, f64Exp_f64Neg, f64Frac_f64Neg, f64Mag]

theorem f64Units_f64Neg (p : Word) : f64Units (f64Neg p) = -f64Units p := by
  rw [f64Units, f64Units, f64Sign_f64Neg, f64Mag_f64Neg]
  cases f64Sign p <;> simp

theorem f64Neg_eq_negZero_iff (p : Word) : f64Neg p = 0x8000000000000000#64 ↔ p = 0 := by
  have hzero : 0x8000000000000000#64 = 0 ^^^ 0x8000000000000000#64 := by decide
  conv_lhs => rw [f64Neg, hzero]
  exact BitVec.xor_left_inj _

/-! ### The operations on finite patterns (R215, R216) -/

/-- A sum is the exact one rounded once; a zero sum has a minus sign where both addends have. -/
theorem f64Add_of_finite (a b : Word) (ha : f64Finite a = true) (hb : f64Finite b = true) :
    f64Add a b = if f64Units a + f64Units b = 0 then f64Of (f64Sign a && f64Sign b) 0
      else f64RN (decide (f64Units a + f64Units b < 0)) (f64Units a + f64Units b).natAbs 1 := by
  simp [f64Add, f64IsNaN_of_finite, f64IsInf_of_finite, ha, hb]

/-- Two patterns with minus signs sum to zero only where both are -0.0. -/
theorem negZero_and_iff (a b : Word) (hsum : f64Units a + f64Units b = 0) :
    (f64Sign a && f64Sign b) = true ↔
      a = 0x8000000000000000#64 ∧ b = 0x8000000000000000#64 := by
  have hnegZero : f64Of true 0 = 0x8000000000000000#64 := rfl
  constructor
  · intro hsigns
    obtain ⟨hsa, hsb⟩ := Bool.and_eq_true_iff.1 hsigns
    rw [f64Units, f64Units, if_pos hsa, if_pos hsb] at hsum
    have hza := eq_zero_of_mag a (by omega)
    have hzb := eq_zero_of_mag b (by omega)
    rw [hsa, hnegZero] at hza
    rw [hsb, hnegZero] at hzb
    exact ⟨hza, hzb⟩
  · rintro ⟨rfl, rfl⟩
    decide

/-- R215's sum. -/
theorem f64Add_eq (a b : Word) (ha : f64Finite a = true) (hb : f64Finite b = true) :
    f64Add a b = if f64Units a + f64Units b = 0 then
        if a = 0x8000000000000000#64 ∧ b = 0x8000000000000000#64 then 0x8000000000000000#64 else 0
      else f64RN (decide (f64Units a + f64Units b < 0)) (f64Units a + f64Units b).natAbs 1 := by
  rw [f64Add_of_finite a b ha hb]
  split
  · next hsum =>
    rw [← if_congr (negZero_and_iff a b hsum) rfl rfl]
    cases f64Sign a && f64Sign b <;> rfl
  · rfl

/-- R215's difference. -/
theorem f64Sub_eq (a b : Word) (ha : f64Finite a = true) (hb : f64Finite b = true) :
    f64Sub a b = if f64Units a - f64Units b = 0 then
        if a = 0x8000000000000000#64 ∧ b = 0 then 0x8000000000000000#64 else 0
      else f64RN (decide (f64Units a - f64Units b < 0)) (f64Units a - f64Units b).natAbs 1 := by
  rw [f64Sub, f64Add_eq a _ ha ((f64Finite_f64Neg b).trans hb), f64Units_f64Neg, ← sub_eq_add_neg]
  simp only [f64Neg_eq_negZero_iff]

theorem f64Sub_self (a : Word) (ha : f64Finite a = true) : f64Sub a a = 0 := by
  rw [f64Sub_eq a a ha ha, if_pos (sub_self _), if_neg]
  rintro ⟨h, h'⟩
  rw [h] at h'
  exact absurd h' (by decide)

/-- R216's product. -/
theorem f64Mul_of_finite (a b : Word) (ha : f64Finite a = true) (hb : f64Finite b = true) :
    f64Mul a b = f64RN (f64Sign a ^^ f64Sign b) (f64Mag a * f64Mag b) f64One := by
  simp [f64Mul, f64IsNaN_of_finite, f64IsInf_of_finite, ha, hb]

/-- R216's quotient. -/
theorem f64Div_of_finite (a b : Word) (ha : f64Finite a = true) (hb : f64Finite b = true)
    (hne : f64Mag b ≠ 0) :
    f64Div a b = f64RN (f64Sign a ^^ f64Sign b) (f64One * f64Mag a) (f64Mag b) := by
  simp [f64Div, f64IsNaN_of_finite, f64IsInf_of_finite, ha, hb, hne]

/-! ### Exact quotients and the nearest one (R216) -/

theorem f64_TWO_is : F64Is F64_TWO false (2 ^ 1 * f64One) := f64Of_twoPow_is 1 (by omega)

theorem f64_1000_is : F64Is F64_1000 false (1000 * f64One) :=
  ⟨by decide, by decide, by decide +kernel⟩

theorem f64_ONE_is : F64Is F64_ONE false f64One := ⟨by decide, by decide, by decide +kernel⟩

/-- A magnitude that is normal also after division by `2^N` keeps its 53 bits. -/
theorem exists_significand_div (a : Word) (N : Nat) (ha : f64Finite a = true)
    (h : N < f64Exp a ∨ f64Units a = 0) :
    ∃ m j, m < 2 ^ 53 ∧ j ≤ 2045 ∧ f64Mag a = 2 ^ N * (m * 2 ^ j) := by
  have hexp : f64Exp a < 2048 := BitVec.isLt _
  have hfrac := f64Frac_lt a
  rw [f64Finite_iff] at ha
  rcases h with hnormal | hzero
  · refine ⟨2 ^ 52 + f64Frac a, f64Exp a - 1 - N, by omega, by omega, ?_⟩
    have hsplit : f64Exp a - 1 = N + (f64Exp a - 1 - N) := by omega
    rw [f64Mag, if_neg (by omega), hsplit, pow_add, Nat.add_sub_cancel_left]
    ring
  · refine ⟨0, 0, by omega, by omega, ?_⟩
    rw [← natAbs_f64Units, hzero]
    rfl

/-- Division by `2^N` is exact where the result is normal or zero. -/
theorem f64Div_twoPow_exact (a c : Word) (N : Nat) (hc : F64Is c false (2 ^ N * f64One))
    (ha : f64Finite a = true) (h : N < f64Exp a ∨ f64Units a = 0) :
    f64Finite (f64Div a c) = true ∧ 2 ^ N * f64Units (f64Div a c) = f64Units a := by
  have hpos : 0 < 2 ^ N * f64One := Nat.mul_pos (Nat.two_pow_pos N) f64One_pos
  obtain ⟨m, j, hm, hj, hmag⟩ := exists_significand_div a N ha h
  have hquot : f64One * f64Mag a = 2 ^ N * f64One * (m * 2 ^ j) := by
    rw [hmag]
    ring
  have his : F64Is (f64Div a c) (f64Sign a) (m * 2 ^ j) := by
    rw [f64Div_of_finite a c ha hc.finite (by rw [hc.mag_eq]; exact hpos.ne'), hc.sign, hc.mag_eq,
      Bool.xor_false]
    exact f64RN_exact _ _ _ m j hpos hquot hm hj
  refine ⟨his.finite, ?_⟩
  rw [his.units, f64Units_eq_withSign a, hmag, withSign, withSign]
  split
  · push_cast
    ring
  · push_cast
    rfl

/-- The quotient of a millisecond count by 1000.0. -/
theorem msToReal_eq (ms : Half) :
    f64Div (u32ToF64 ms) F64_1000 = f64RN false (f64One * (ms.toNat * f64One)) (1000 * f64One) :=
  f64Div_eq_f64RN _ _ _ _ (u32ToF64_is ms) f64_1000_is
    (Nat.mul_ne_zero (by decide) f64One_pos.ne')

/-- The overflow begins far above the numbers of 53 bits. -/
theorem two_pow_le_overflow : 2 ^ 53 ≤ 2 ^ 1024 - 2 ^ 970 := by
  have hsplit : 2 ^ 1024 - 2 ^ 970 = (2 ^ 54 - 1) * 2 ^ 970 := by
    rw [show 1024 = 54 + 970 from rfl, pow_add 2 54 970, ← Nat.sub_one_mul]
  rw [hsplit]
  exact (by decide : 2 ^ 53 ≤ 2 ^ 54 - 1).trans (Nat.le_mul_of_pos_right _ (by positivity))

/-- `RN` overflows only from `2^1024 - 2^970` on (R211). -/
theorem f64RN_finite (neg : Bool) (num den : Nat) (hden : 0 < den)
    (h : num < (2 ^ 1024 - 2 ^ 970) * f64One * den) : f64Finite (f64RN neg num den) = true := by
  rcases f64RN_cases neg num den hden with ⟨-, hover⟩ | ⟨his, -, -⟩
  · exact absurd hover h.not_ge
  · exact his.finite

/-- No finite pattern is nearer to a rational than `RN`'s result (R211). -/
theorem f64RN_nearest (neg : Bool) (num den : Nat) (q : Word) (hden : 0 < den)
    (hfin : f64Finite (f64RN neg num den) = true) (hq : f64Finite q = true) :
    |den * f64Units (f64RN neg num den) - withSign neg num| ≤
      |den * f64Units q - withSign neg num| :=
  (((roundingIsToNearestEven neg num den hden).1 hfin) q hq).1

theorem msToReal_finite (ms : Half) : f64Finite (f64Div (u32ToF64 ms) F64_1000) = true := by
  rw [msToReal_eq]
  refine f64RN_finite _ _ _ (Nat.mul_pos (by decide) f64One_pos) ?_
  have hms : ms.toNat < (2 ^ 1024 - 2 ^ 970) * 1000 := by
    have hlt : ms.toNat < 2 ^ 53 * 1000 := by omega
    exact hlt.trans_le (Nat.mul_le_mul_right _ two_pow_le_overflow)
  calc f64One * (ms.toNat * f64One) = ms.toNat * (f64One * f64One) := by ring
    _ < (2 ^ 1024 - 2 ^ 970) * 1000 * (f64One * f64One) :=
      Nat.mul_lt_mul_of_pos_right hms (Nat.mul_pos f64One_pos f64One_pos)
    _ = (2 ^ 1024 - 2 ^ 970) * f64One * (1000 * f64One) := by ring

/-- A millisecond count in seconds is the nearest pattern. -/
theorem msToReal_nearest (ms : Half) (q : Word) (hq : f64Finite q = true) :
    |1000 * f64Units (f64Div (u32ToF64 ms) F64_1000) - f64One * ms.toNat| ≤
      |1000 * f64Units q - f64One * ms.toNat| := by
  have hscale (u : Int) :
      |((1000 * f64One : Nat) : Int) * u - withSign false (f64One * (ms.toNat * f64One) : Nat)| =
        f64One * |1000 * u - f64One * ms.toNat| := by
    have hcast : (0 : Int) ≤ f64One := Int.natCast_nonneg _
    rw [← abs_of_nonneg hcast, ← abs_mul, abs_of_nonneg hcast, withSign, if_neg Bool.false_ne_true]
    push_cast
    ring_nf
  have hnear := f64RN_nearest false (f64One * (ms.toNat * f64One)) (1000 * f64One) q
    (Nat.mul_pos (by decide) f64One_pos) (msToReal_eq ms ▸ msToReal_finite ms) hq
  rw [hscale, hscale, ← msToReal_eq] at hnear
  exact le_of_mul_le_mul_left hnear (mod_cast f64One_pos)

/-- Settles O44. -/
theorem sumsAreExactThenRounded : Obligations.SumsAreExactThenRounded := by
  refine ⟨fun a b ha hb => ⟨f64Add_eq a b ha hb, f64Sub_eq a b ha hb, f64Sub_self a ha, ?mul,
    ?mulSign, fun hne => ?div⟩, fun row hrow a ha h => ?exact,
    fun ms q hq => ⟨msToReal_finite ms, msToReal_nearest ms q hq⟩⟩
  case mul =>
    rw [f64Mul_of_finite a b ha hb, Int.natAbs_mul, natAbs_f64Units, natAbs_f64Units]
  case mulSign => rw [f64Mul_of_finite a b ha hb, f64Sign_f64RN]
  case div =>
    have hmag : f64Mag b ≠ 0 := by rwa [← natAbs_f64Units, Int.natAbs_ne_zero]
    rw [f64Div_of_finite a b ha hb hmag, natAbs_f64Units, natAbs_f64Units]
    exact ⟨rfl, f64Sign_f64RN _ _ _⟩
  case exact =>
    have hc : F64Is row.2 false (2 ^ row.1 * f64One) := by
      simp only [List.mem_cons, List.not_mem_nil, or_false] at hrow
      rcases hrow with rfl | rfl | rfl <;> dsimp only
      · exact f64_TWO_is
      · exact f64_2P16_is
      · exact f64_2P32_is
    exact f64Div_twoPow_exact a row.2 row.1 hc ha h

/-! ### The floor (R217) -/

/-- A sum whose exact value has at most 53 bits is not rounded. -/
theorem f64Add_exact (a b : Word) (m j : Nat) (ha : f64Finite a = true) (hb : f64Finite b = true)
    (hsum : (f64Units a + f64Units b).natAbs = m * 2 ^ j) (hm : m < 2 ^ 53) (hj : j ≤ 2045) :
    f64Finite (f64Add a b) = true ∧ f64Units (f64Add a b) = f64Units a + f64Units b := by
  rw [f64Add_of_finite a b ha hb]
  split
  · next hzero =>
    rw [hzero, (zero_is _).units]
    exact ⟨(zero_is _).finite, by cases f64Sign a && f64Sign b <;> rfl⟩
  · have his := f64RN_exact (decide (f64Units a + f64Units b < 0))
      (f64Units a + f64Units b).natAbs 1 m j one_pos (by rw [Nat.one_mul, hsum]) hm hj
    exact ⟨his.finite, by rw [his.units, ← hsum, withSign_natAbs]⟩

/-- A finite pattern's floor has at most 53 bits: a pattern without a fraction is its own floor, and
one with a fraction is below `2^52`. -/
theorem exists_significand_floor (a : Word) (ha : f64Finite a = true) :
    ∃ m j, m < 2 ^ 53 ∧ j ≤ 2045 ∧ f64One * (f64Units a / f64One).natAbs = m * 2 ^ j := by
  obtain ⟨m, j, hm, hj, hmag⟩ := exists_significand a ha
  rcases Nat.lt_or_ge j 1074 with hfraction | hwhole
  · refine ⟨(f64Units a / f64One).natAbs, 1074, ?_, by omega, Nat.mul_comm _ _⟩
    have hdouble : 2 * f64Mag a < 2 ^ 53 * f64One := by
      calc 2 * f64Mag a = m * 2 ^ (j + 1) := by rw [hmag, pow_succ]; ring
        _ < 2 ^ 53 * 2 ^ (j + 1) := Nat.mul_lt_mul_of_pos_right hm (Nat.two_pow_pos _)
        _ ≤ 2 ^ 53 * f64One := by
          rw [f64One]
          exact Nat.mul_le_mul_left _ (pow_le_pow_right₀ one_le_two hfraction)
    have hlt : f64Mag a < 2 ^ 52 * f64One := by omega
    rw [← natAbs_f64Units] at hlt
    have hpos : (0 : Int) < f64One := mod_cast f64One_pos
    have hupper : f64Units a / f64One < 2 ^ 52 :=
      Int.ediv_lt_of_lt_mul hpos (by zify at hlt; exact (le_abs_self _).trans_lt hlt)
    have hlower : -2 ^ 52 ≤ f64Units a / f64One := by
      refine Int.le_ediv_of_mul_le hpos ?_
      zify at hlt
      linarith [neg_abs_le (f64Units a)]
    omega
  · refine ⟨m, j, hm, hj, ?_⟩
    have hdvd : f64One ∣ (f64Units a).natAbs := by
      rw [natAbs_f64Units, hmag, f64One]
      exact (pow_dvd_pow 2 hwhole).mul_left m
    rw [Int.natAbs_ediv_of_dvd (Int.natCast_dvd.2 hdvd), Int.natAbs_natCast,
      Nat.mul_div_cancel' hdvd, natAbs_f64Units, hmag]

/-- The floor is the greatest integer not above the number, without rounding. -/
theorem f64Floor_exact (a : Word) (ha : f64Finite a = true) :
    f64Finite (f64Floor a) = true ∧
      f64Units (f64Floor a) = f64One * (f64Units a / f64One) := by
  obtain ⟨m, j, hm, hj, hfloor⟩ := exists_significand_floor a ha
  have his := f64RN_exact (decide (f64Units a / f64One < 0))
    (f64One * (f64Units a / f64One).natAbs) 1 m j one_pos (by rw [Nat.one_mul, hfloor]) hm hj
  have heq : f64Floor a = f64RN (decide (f64Units a / f64One < 0))
      (f64One * (f64Units a / f64One).natAbs) 1 := by
    rw [f64Floor, f64IsNaN_of_finite a ha, f64IsInf_of_finite a ha, if_neg Bool.false_ne_true,
      if_neg Bool.false_ne_true]
  refine ⟨heq ▸ his.finite, ?_⟩
  rw [heq, his.units, ← hfloor]
  conv_rhs => rw [← withSign_natAbs (f64Units a / f64One)]
  rw [withSign, withSign]
  split
  · push_cast
    ring
  · push_cast
    ring

/-- On [0, 1) the floor is +0.0. -/
theorem f64Floor_of_fraction (a : Word) (h : F64Fraction a) : f64Floor a = 0 := by
  have hzero : f64Units a / f64One = 0 := Int.ediv_eq_zero_of_lt h.nonneg h.lt_one
  simp only [f64Floor, f64IsNaN_of_finite, f64IsInf_of_finite, h.finite, hzero,
    Bool.false_eq_true, if_false, Int.natAbs_zero, Nat.mul_zero]
  decide

/-- What `a - floor(a)` rounds. -/
theorem units_sub_floor (a : Word) (ha : f64Finite a = true) :
    f64Units a + f64Units (f64Neg (f64Floor a)) = f64Units a % f64One := by
  rw [f64Units_f64Neg, (f64Floor_exact a ha).2, Int.emod_def]
  ring

/-- The fractional part of a nonnegative pattern, which has no more bits than the pattern. -/
theorem f64Sub_floor_exact (a : Word) (ha : f64Finite a = true) (hnonneg : 0 ≤ f64Units a) :
    f64Finite (f64Sub a (f64Floor a)) = true ∧
      f64Units (f64Sub a (f64Floor a)) = f64Units a % f64One := by
  obtain ⟨hfin, -⟩ := f64Floor_exact a ha
  obtain ⟨m, j, hm, hj, hmag⟩ := exists_significand a ha
  have hsum := units_sub_floor a ha
  have hmod : f64Units a % f64One = ((m * 2 ^ j % f64One : Nat) : Int) := by
    rw [← f64Mag_eq_units a hnonneg, hmag]
    push_cast
    rfl
  have hbits : ∃ m' j', m' < 2 ^ 53 ∧ j' ≤ 2045 ∧ m * 2 ^ j % f64One = m' * 2 ^ j' := by
    rcases Nat.lt_or_ge j 1074 with hfraction | hwhole
    · refine ⟨m % 2 ^ (1074 - j), j, (Nat.mod_le _ _).trans_lt hm, hj, ?_⟩
      rw [← Nat.mul_mod_mul_right, ← pow_add, Nat.sub_add_cancel hfraction.le, f64One]
    · refine ⟨0, 0, by decide, by decide, ?_⟩
      rw [f64One, Nat.mod_eq_zero_of_dvd ((pow_dvd_pow 2 hwhole).mul_left m), Nat.zero_mul]
  obtain ⟨m', j', hm', hj', hsplit⟩ := hbits
  have hexact := f64Add_exact a (f64Neg (f64Floor a)) m' j' ha ((f64Finite_f64Neg _).trans hfin)
    (by rw [hsum, hmod, Int.natAbs_natCast, hsplit]) hm' hj'
  rw [hsum] at hexact
  exact hexact

/-- Settles O45. -/
theorem floorIsExact : Obligations.FloorIsExact := by
  intro a ha
  have hpos : (0 : Int) < f64One := mod_cast f64One_pos
  obtain ⟨hfin, hfloor⟩ := f64Floor_exact a ha
  refine ⟨hfin, hfloor, fun hnonneg hlt => f64Floor_of_fraction a ⟨ha, hnonneg, hlt⟩,
    fun hnonneg => ?_⟩
  obtain ⟨hfin', hfrac⟩ := f64Sub_floor_exact a ha hnonneg
  rw [hfrac]
  exact ⟨hfin', rfl, Int.emod_nonneg _ hpos.ne', Int.emod_lt_of_pos _ hpos⟩

/-! ### Conversion to an integer field (R220) -/

/-- A finite pattern's field is the truncated product modulo `2^W`. -/
theorem f64ToUint_eq_ofInt (a : Word) (S W : Nat) (free : BitVec W) (ha : f64Finite a = true) :
    f64ToUint a S W free = BitVec.ofInt W ((2 ^ S * f64Units a).tdiv f64One) := by
  have hmag : (2 ^ S * (f64Mag a : Int)).tdiv f64One =
      ((2 ^ S * f64Mag a / f64One : Nat) : Int) := by
    push_cast
    exact Int.tdiv_eq_ediv_of_nonneg (by positivity)
  rw [f64ToUint, if_pos ha, f64Units]
  dsimp only
  split
  · rw [mul_neg, Int.neg_tdiv, hmag, BitVec.ofInt_neg, BitVec.ofInt_natCast]
  · rw [hmag, BitVec.ofInt_natCast]

theorem f64ToUint_toNat (a : Word) (S W : Nat) (free : BitVec W) (ha : f64Finite a = true) :
    ((f64ToUint a S W free).toNat : Int) = (2 ^ S * f64Units a).tdiv f64One % 2 ^ W := by
  have hpow : ((2 ^ W : Nat) : Int) ≠ 0 := mod_cast (Nat.two_pow_pos W).ne'
  rw [f64ToUint_eq_ofInt a S W free ha, BitVec.toNat_ofInt,
    Int.toNat_of_nonneg (Int.emod_nonneg _ hpow)]
  push_cast
  rfl

/-! ### PACK's two fields (40_codec.md R116 to R118) -/

/-- PACK's command writes RES and counts a free value where the fraction is not finite. -/
theorem countFree_setRes_eq (p v : Word) (s : State) : countFree p 1 (setRes v s) =
    { s with x := { s.x with res := v }, freeCount := (countFree p 1 (setRes v s)).freeCount } := by
  unfold countFree
  split <;> rfl

theorem countFree_setRes_freeCount (p v : Word) (s : State) (hp : f64Finite p = true) :
    (countFree p 1 (setRes v s)).freeCount = s.freeCount := by
  rw [countFree_of_finite p 1 _ hp]
  rfl

/-- What PACK does for fields of width `W`: its result is the seconds above the fraction field. -/
theorem exists_packed {W : Nat} {i : Instr} {s : State} {v : Word} (free : BitVec W)
    (hexec : exec i s = .next (countFree s.x.opf 1 (setRes v s)))
    (hv : v.toNat = s.x.ops.toNat % 2 ^ W * 2 ^ W + (fracField s.x.opf W free).toNat) :
    ∃ (v : Word) (n : Nat),
      exec i s = .next { s with x := { s.x with res := v }, freeCount := n } ∧
      v.toNat / 2 ^ W = s.x.ops.toNat % 2 ^ W ∧
      (f64Finite s.x.opf = true → n = s.freeCount ∧
        ((v.toNat % 2 ^ W : Nat) : Int) =
          (2 ^ W * f64Units s.x.opf).tdiv f64One % 2 ^ W) := by
  have hlt := (fracField s.x.opf W free).isLt
  refine ⟨v, (countFree s.x.opf 1 (setRes v s)).freeCount, ?step, ?seconds,
    fun hf => ⟨countFree_setRes_freeCount _ _ s hf, ?field⟩⟩
  case step => exact hexec.trans (congrArg _ (countFree_setRes_eq _ _ s))
  case seconds =>
    rw [hv, Nat.mul_comm, Nat.mul_add_div (Nat.two_pow_pos W), Nat.div_eq_of_lt hlt, Nat.add_zero]
  case field => rw [hv, Nat.mul_add_mod_of_lt hlt, fracField, f64ToUint_toNat _ _ _ _ hf]

/-- Settles O21. -/
theorem pack32PacksBothFields : Obligations.Pack32PacksBothFields := by
  refine ⟨rfl, fun s hs => exists_packed ((freeWord s).setWidth 16)
    (exec_of_enabled .pack32 s (accepting_of_mem s hs)) ?_⟩
  rw [pack32Value, shortOf, BitVec.toNat_setWidth_of_le (by omega), append_toNat_eq, ops16_toNat]

/-- Settles O22. -/
theorem pack64PacksBothFields : Obligations.Pack64PacksBothFields := by
  refine ⟨rfl, fun s hs => exists_packed ((freeWord s).setWidth 32)
    (exec_of_enabled .pack64 s (accepting_of_mem s hs)) ?_⟩
  rw [pack64Value, longOf, append_toNat_eq, ops32_toNat]

end Sys2Proof.Machine
end

section
/-! PROOF. Ranges of binary64 results: rounding keeps the order (45_binary64.md R211), so a result
lies between the patterns its exact value lies between. -/

namespace Sys2Proof.Machine

open Sys2Proof.Safety

/-! ### Rounding keeps the order -/

/-- What is not above a pattern is not rounded above it. -/
theorem f64RN_le (neg : Bool) (num den : Nat) (q : Word) (hden : 0 < den)
    (hfin : f64Finite (f64RN neg num den) = true) (hq : f64Finite q = true)
    (h : withSign neg num ≤ den * f64Units q) : f64Units (f64RN neg num den) ≤ f64Units q := by
  have hnear := f64RN_nearest neg num den q hden hfin hq
  rw [abs_of_nonneg (by linarith : 0 ≤ den * f64Units q - withSign neg num)] at hnear
  have hle : (den : Int) * f64Units (f64RN neg num den) ≤ den * f64Units q := by
    linarith [le_abs_self (den * f64Units (f64RN neg num den) - withSign neg num)]
  exact le_of_mul_le_mul_left hle (mod_cast hden)

/-- What is not below a pattern is not rounded below it. -/
theorem le_f64RN (neg : Bool) (num den : Nat) (q : Word) (hden : 0 < den)
    (hfin : f64Finite (f64RN neg num den) = true) (hq : f64Finite q = true)
    (h : den * f64Units q ≤ withSign neg num) : f64Units q ≤ f64Units (f64RN neg num den) := by
  have hnear := f64RN_nearest neg num den q hden hfin hq
  rw [abs_of_nonpos (by linarith : den * f64Units q - withSign neg num ≤ 0)] at hnear
  have hle : (den : Int) * f64Units q ≤ den * f64Units (f64RN neg num den) := by
    linarith [neg_abs_le (den * f64Units (f64RN neg num den) - withSign neg num)]
  exact le_of_mul_le_mul_left hle (mod_cast hden)

/-- A number of at most 53 bits has a pattern. -/
theorem exists_pattern (u : Int) (m j : Nat) (hu : u.natAbs = m * 2 ^ j) (hm : m < 2 ^ 53)
    (hj : j ≤ 2045) : ∃ q, f64Finite q = true ∧ f64Units q = u := by
  have his := f64RN_exact (decide (u < 0)) u.natAbs 1 m j one_pos (by rw [Nat.one_mul, hu]) hm hj
  exact ⟨_, his.finite, by rw [his.units, ← hu, withSign_natAbs]⟩

/-- A whole number below `2^53` has a pattern. -/
theorem exists_whole (n : Int) (h : n.natAbs < 2 ^ 53) :
    ∃ q, f64Finite q = true ∧ f64Units q = n * f64One := by
  refine exists_pattern _ n.natAbs 1074 ?_ h (by decide)
  rw [Int.natAbs_mul, Int.natAbs_natCast, f64One]

/-! ### Patterns between whole numbers -/

/-- `p` is finite and stands for a number between the whole numbers `lo` and `hi`. -/
structure F64In (p : Word) (lo hi : Int) : Prop where
  finite : f64Finite p = true
  lower : lo * f64One ≤ f64Units p
  upper : f64Units p ≤ hi * f64One

theorem F64In.mono {p : Word} {lo hi lo' hi' : Int} (h : F64In p lo hi) (hlo : lo' ≤ lo)
    (hhi : hi ≤ hi') : F64In p lo' hi' := by
  have hpos : (0 : Int) ≤ f64One := Int.natCast_nonneg _
  exact ⟨h.finite, (mul_le_mul_of_nonneg_right hlo hpos).trans h.lower,
    h.upper.trans (mul_le_mul_of_nonneg_right hhi hpos)⟩

theorem F64In.neg {p : Word} {lo hi : Int} (h : F64In p lo hi) : F64In (f64Neg p) (-hi) (-lo) := by
  obtain ⟨hfin, hlower, hupper⟩ := h
  refine ⟨(f64Finite_f64Neg p).trans hfin, ?_, ?_⟩ <;> rw [f64Units_f64Neg] <;> linarith

/-- The magnitude of a pattern between `-k` and `k`. -/
theorem F64In.mag_le {p : Word} {k : Nat} (h : F64In p (-k) k) : f64Mag p ≤ k * f64One := by
  obtain ⟨-, hlower, hupper⟩ := h
  rw [← natAbs_f64Units]
  zify
  rw [abs_le]
  exact ⟨by linarith, hupper⟩

/-- The rounded value of a rational between two whole numbers is between them. -/
theorem f64RN_in (neg : Bool) (num den : Nat) (lo hi : Int) (hden : 0 < den) (hlo : -2 ^ 53 < lo)
    (hhi : hi < 2 ^ 53) (hlower : den * (lo * f64One) ≤ withSign neg num)
    (hupper : withSign neg num ≤ den * (hi * f64One)) : F64In (f64RN neg num den) lo hi := by
  have hunit : (0 : Int) < f64One * den := mod_cast Nat.mul_pos f64One_pos hden
  have hordered : lo ≤ hi := by
    by_contra hlt
    nlinarith [mul_lt_mul_of_pos_left (not_le.1 hlt) hunit]
  have hnum : (num : Int) < 2 ^ 53 * (f64One * den) := by
    rw [← Nat.abs_cast num, ← abs_withSign neg, abs_lt]
    constructor <;> nlinarith
  have hfin : f64Finite (f64RN neg num den) = true := by
    refine f64RN_finite neg num den hden ?_
    rw [Nat.mul_assoc]
    exact lt_of_lt_of_le (mod_cast hnum) (Nat.mul_le_mul_right _ two_pow_le_overflow)
  obtain ⟨qlo, hqlo, hunitsLo⟩ := exists_whole lo (by omega)
  obtain ⟨qhi, hqhi, hunitsHi⟩ := exists_whole hi (by omega)
  refine ⟨hfin, ?_, ?_⟩
  · rw [← hunitsLo] at hlower ⊢
    exact le_f64RN neg num den qlo hden hfin hqlo hlower
  · rw [← hunitsHi] at hupper ⊢
    exact f64RN_le neg num den qhi hden hfin hqhi hupper

/-! ### Sums and differences -/

/-- A sum is between the whole numbers the exact sum is between. -/
theorem f64Add_in_of_units (a b : Word) (lo hi : Int) (ha : f64Finite a = true)
    (hb : f64Finite b = true) (hlo : -2 ^ 53 < lo) (hhi : hi < 2 ^ 53)
    (hlower : lo * f64One ≤ f64Units a + f64Units b)
    (hupper : f64Units a + f64Units b ≤ hi * f64One) : F64In (f64Add a b) lo hi := by
  rw [f64Add_of_finite a b ha hb]
  split
  · next hzero =>
    rw [hzero] at hlower hupper
    have hunits : f64Units (f64Of (f64Sign a && f64Sign b) 0) = 0 := by
      rw [(zero_is _).units]
      cases f64Sign a && f64Sign b <;> rfl
    exact ⟨(zero_is _).finite, hunits.symm ▸ hlower, hunits.symm ▸ hupper⟩
  · refine f64RN_in _ _ 1 lo hi one_pos hlo hhi ?_ ?_ <;>
      rw [withSign_natAbs, Nat.cast_one, one_mul]
    · exact hlower
    · exact hupper

theorem F64In.add {a b : Word} {la ha lb hb : Int} (hina : F64In a la ha) (hinb : F64In b lb hb)
    (hlo : -2 ^ 53 < la + lb) (hhi : ha + hb < 2 ^ 53) :
    F64In (f64Add a b) (la + lb) (ha + hb) := by
  have hlower := add_le_add hina.lower hinb.lower
  have hupper := add_le_add hina.upper hinb.upper
  rw [← add_mul] at hlower hupper
  exact f64Add_in_of_units a b _ _ hina.finite hinb.finite hlo hhi hlower hupper

theorem F64In.sub {a b : Word} {la ha lb hb : Int} (hina : F64In a la ha) (hinb : F64In b lb hb)
    (hlo : -2 ^ 53 < la - hb) (hhi : ha - lb < 2 ^ 53) :
    F64In (f64Sub a b) (la - hb) (ha - lb) := by
  rw [sub_eq_add_neg] at hlo hhi ⊢
  rw [sub_eq_add_neg, f64Sub]
  exact hina.add hinb.neg hlo hhi

/-- A finite sum is not rounded below a pattern that its exact value is not below. -/
theorem le_f64Add (a b q : Word) (ha : f64Finite a = true) (hb : f64Finite b = true)
    (hfin : f64Finite (f64Add a b) = true) (hq : f64Finite q = true)
    (h : f64Units q ≤ f64Units a + f64Units b) : f64Units q ≤ f64Units (f64Add a b) := by
  rw [f64Add_of_finite a b ha hb] at hfin ⊢
  split
  · next hzero =>
    rw [hzero] at h
    rw [(zero_is _).units]
    cases f64Sign a && f64Sign b <;> exact h
  · next hne =>
    rw [if_neg hne] at hfin
    refine le_f64RN _ _ 1 q one_pos hfin hq ?_
    rw [withSign_natAbs, Nat.cast_one, one_mul]
    exact h

/-- The sign of a sum that is not negative, from an addend without a minus sign (R215). -/
theorem f64Sign_f64Add (a b : Word) (ha : f64Finite a = true) (hb : f64Finite b = true)
    (hsign : f64Sign a = false) (h : 0 ≤ f64Units a + f64Units b) :
    f64Sign (f64Add a b) = false := by
  rw [f64Add_of_finite a b ha hb]
  split
  · rw [(zero_is _).sign, hsign, Bool.false_and]
  · rw [f64Sign_f64RN, decide_eq_false (not_lt.2 h)]

/-! ### Halves, thousandths and whole milliseconds -/

/-- Half of a pattern in units: the exact quotient that is rounded. -/
theorem f64Div_TWO (a : Word) (ha : f64Finite a = true) :
    f64Div a F64_TWO = f64RN (f64Sign a) (f64One * f64Mag a) (2 * f64One) := by
  have hne : f64Mag F64_TWO ≠ 0 := by
    rw [f64_TWO_is.mag_eq]
    exact (Nat.mul_pos (by decide) f64One_pos).ne'
  rw [f64Div_of_finite a F64_TWO ha f64_TWO_is.finite hne, f64_TWO_is.sign, f64_TWO_is.mag_eq,
    Bool.xor_false, pow_one]

theorem withSign_mul (neg : Bool) (x y : Nat) :
    withSign neg ((x * y : Nat) : Int) = x * withSign neg y := by
  cases neg <;> simp [withSign]

theorem F64In.half {a : Word} {lo hi : Int} (h : F64In a (2 * lo) (2 * hi)) (hlo : -2 ^ 53 < lo)
    (hhi : hi < 2 ^ 53) : F64In (f64Div a F64_TWO) lo hi := by
  have hpos : (0 : Int) ≤ f64One := Int.natCast_nonneg _
  rw [f64Div_TWO a h.finite]
  refine f64RN_in _ _ _ lo hi (Nat.mul_pos (by decide) f64One_pos) hlo hhi ?_ ?_ <;>
    rw [withSign_mul, ← f64Units_eq_withSign] <;> push_cast
  · calc 2 * (f64One : Int) * (lo * f64One) = f64One * (2 * lo * f64One) := by ring
      _ ≤ f64One * f64Units a := mul_le_mul_of_nonneg_left h.lower hpos
  · calc (f64One : Int) * f64Units a ≤ f64One * (2 * hi * f64One) :=
        mul_le_mul_of_nonneg_left h.upper hpos
      _ = 2 * f64One * (hi * f64One) := by ring

/-- A half is not rounded below a pattern whose double is not above the whole. -/
theorem le_f64Div_TWO (a q : Word) (ha : f64Finite a = true) (hq : f64Finite q = true)
    (hfin : f64Finite (f64Div a F64_TWO) = true) (h : 2 * f64Units q ≤ f64Units a) :
    f64Units q ≤ f64Units (f64Div a F64_TWO) := by
  have hpos : (0 : Int) ≤ f64One := Int.natCast_nonneg _
  rw [f64Div_TWO a ha] at hfin ⊢
  refine le_f64RN _ _ _ q (Nat.mul_pos (by decide) f64One_pos) hfin hq ?_
  rw [withSign_mul, ← f64Units_eq_withSign]
  push_cast
  calc 2 * (f64One : Int) * f64Units q = f64One * (2 * f64Units q) := by ring
    _ ≤ f64One * f64Units a := mul_le_mul_of_nonneg_left h hpos

/-- An elapsed time is at most `(2^32 - 1) / 1000` seconds (R182). -/
theorem msToReal_in (ms : Half) : F64In (msToReal ms) 0 4294968 := by
  have hms : (ms.toNat : Int) ≤ 1000 * 4294968 := by omega
  have hpos : (0 : Int) ≤ f64One * f64One :=
    mul_nonneg (Int.natCast_nonneg _) (Int.natCast_nonneg _)
  have hden : 0 < 1000 * f64One := Nat.mul_pos (by decide) f64One_pos
  rw [msToReal, msToReal_eq]
  refine f64RN_in _ _ _ _ _ hden (by decide) (by decide) ?_ ?_ <;>
    rw [withSign, if_neg Bool.false_ne_true] <;> push_cast
  · rw [zero_mul, mul_zero, mul_left_comm]
    exact mul_nonneg (Int.natCast_nonneg _) hpos
  · calc (f64One : Int) * (ms.toNat * f64One) = ms.toNat * (f64One * f64One) := by ring
      _ ≤ 1000 * 4294968 * (f64One * f64One) := mul_le_mul_of_nonneg_right hms hpos
      _ = 1000 * f64One * (4294968 * f64One) := by ring

/-- `n * 2^M` units are `n / 2^32`, where `32 + M = 1074`. -/
theorem timestamp_units_le (n M : Nat) (hM : 32 + M = 1074) (hn : n ≤ 2 ^ 64) :
    n * 2 ^ M ≤ 2 ^ 32 * f64One := by
  rw [f64One, ← hM, pow_add]
  calc n * 2 ^ M ≤ 2 ^ 64 * 2 ^ M := Nat.mul_le_mul_right _ hn
    _ = 2 ^ 32 * (2 ^ 32 * 2 ^ M) := by ring

/-- A timestamp is at most `2^32` seconds (R121). -/
theorem tsToReal_in (v : Word) : F64In (tsToReal v) 0 (2 ^ 32) := by
  have hunits := timestamp_units_le v.toNat 1042 rfl v.isLt.le
  rw [tsToReal_eq_f64RN, Nat.mul_comm (2 ^ 1042)]
  refine f64RN_in _ _ 1 _ _ one_pos (by decide) (by decide) ?_ ?_ <;>
    rw [withSign, if_neg Bool.false_ne_true, Nat.cast_one, one_mul]
  · rw [zero_mul]
    exact Int.natCast_nonneg _
  · exact_mod_cast hunits

theorem tsToReal_sign (v : Word) : f64Sign (tsToReal v) = false := by
  rw [tsToReal_eq_f64RN, f64Sign_f64RN]

end Sys2Proof.Machine
end

section
/-! PROOF. The ranges of COMPUTE's values (43_engine_compute_sync.md R184), O38, and of SYNC's
corrected time (R189(b)). -/

namespace Sys2Proof.Machine

open Sys2Proof.Safety

/-! ### COMPUTE's ranges (R184) -/

theorem atMostPow2_of_in (p : Word) (k : Nat) (h : F64In p (-2 ^ k) (2 ^ k)) : AtMostPow2 p k := by
  have h' : F64In p (-((2 ^ k : Nat) : Int)) (2 ^ k : Nat) := by exact_mod_cast h
  exact ⟨h.finite, h'.mag_le⟩

theorem nonnegAtMostPow2_of_in (p : Word) (k : Nat) (h : F64In p 0 (2 ^ k))
    (hsign : f64Sign p = false) : NonnegAtMostPow2 p k :=
  ⟨atMostPow2_of_in p k (h.mono (by rw [neg_nonpos]; positivity) le_rfl), hsign⟩

/-- A pattern below `hi` seconds, `hi` a whole number below `bound`. -/
theorem F64In.mag_lt {p : Word} {lo hi : Int} (h : F64In p lo hi) (bound : Nat)
    (hlo : -bound < lo) (hhi : hi < bound) : f64Mag p < bound * f64One := by
  have hpos : (0 : Int) < f64One := mod_cast f64One_pos
  obtain ⟨-, hlower, hupper⟩ := h
  rw [← natAbs_f64Units]
  zify
  rw [abs_lt]
  constructor <;> nlinarith

theorem F64In.nonneg {p : Word} {hi : Int} (h : F64In p 0 hi) : 0 ≤ f64Units p := by
  have hlower := h.lower
  rwa [zero_mul] at hlower

/-- A time of R184: between 0 and `2^32` seconds and without a minus sign. -/
structure TimeReal (p : Word) : Prop where
  range : F64In p 0 (2 ^ 32)
  sign : f64Sign p = false

theorem timeReal_tsToReal (v : Word) : TimeReal (tsToReal v) := ⟨tsToReal_in v, tsToReal_sign v⟩

theorem TimeReal.nonnegAtMostPow2 {p : Word} (h : TimeReal p) : NonnegAtMostPow2 p 32 :=
  nonnegAtMostPow2_of_in p 32 h.range h.sign

theorem timeReal_of_nonnegAtMostPow2 (p : Word) (h : NonnegAtMostPow2 p 32) : TimeReal p := by
  obtain ⟨⟨hfin, hmag⟩, hsign⟩ := h
  have hunits := f64Units_of_not_sign p hsign
  refine ⟨⟨hfin, ?_, ?_⟩, hsign⟩ <;> rw [hunits]
  · rw [zero_mul]
    exact Int.natCast_nonneg _
  · exact_mod_cast hmag

section Measurement
variable (t1 t2 t3 : Word) (el : Half)

/-- T4 lies in [0, 2^32 + 4294968] (R182, R184). -/
theorem clientReceive_in (h1 : TimeReal t1) :
    F64In (f64Add t1 (msToReal el)) 0 (2 ^ 32 + 4294968) :=
  h1.range.add (msToReal_in el) (by decide) (by decide)

theorem clientReceive_sign (h1 : TimeReal t1) :
    f64Sign (f64Add t1 (msToReal el)) = false := by
  have hsum := add_nonneg h1.range.nonneg (msToReal_in el).nonneg
  exact f64Sign_f64Add _ _ h1.range.finite (msToReal_in el).finite h1.sign hsum

/-- The delay's magnitude is below `2^33 + 4294968` (R183, R184). -/
theorem roundTripDelay_in (h1 : TimeReal t1) (h2 : TimeReal t2) (h3 : TimeReal t3) :
    F64In (roundTripDelay t1 t2 t3 (f64Add t1 (msToReal el))) (-(2 ^ 33 + 4294968))
      (2 ^ 33 + 4294968) := by
  have h41 := (clientReceive_in t1 el h1).sub h1.range (by decide) (by decide)
  have h32 := h3.range.sub h2.range (by decide) (by decide)
  exact (h41.sub h32 (by decide) (by decide)).mono (by decide) (by decide)

/-- The offset's magnitude is at most `2^32 + 2147484` (R183, R184). -/
theorem clockOffset_in (h1 : TimeReal t1) (h2 : TimeReal t2) (h3 : TimeReal t3) :
    F64In (clockOffset t1 t2 t3 (f64Add t1 (msToReal el))) (-(2 ^ 32 + 2147484))
      (2 ^ 32 + 2147484) := by
  have h21 := h2.range.sub h1.range (by decide) (by decide)
  have h34 := h3.range.sub (clientReceive_in t1 el h1) (by decide) (by decide)
  have hsum := h21.add h34 (by decide) (by decide)
  exact (hsum.mono (by decide) (by decide)).half (by decide) (by decide)

end Measurement

/-- COMPUTE's formulas over times in [0, 2^32] meet R184's ranges. -/
theorem measurementInRange_of_times (x : DataRegs) (el : Half) (h1 : TimeReal x.t1r)
    (h2 : TimeReal x.t2r) (h3 : TimeReal x.t3r) (h4 : x.t4r = f64Add x.t1r (msToReal el))
    (hdelay : x.delay = roundTripDelay x.t1r x.t2r x.t3r x.t4r)
    (hoffset : x.offset = clockOffset x.t1r x.t2r x.t3r x.t4r) : MeasurementInRange x := by
  have hin4 := clientReceive_in x.t1r el h1
  have hsign4 := clientReceive_sign x.t1r el h1
  have hindelay := roundTripDelay_in x.t1r x.t2r x.t3r el h1 h2 h3
  have hinoffset := clockOffset_in x.t1r x.t2r x.t3r el h1 h2 h3
  rw [← h4] at hin4 hsign4 hindelay hinoffset
  rw [← hdelay] at hindelay
  rw [← hoffset] at hinoffset
  exact ⟨h1.nonnegAtMostPow2, h2.nonnegAtMostPow2, h3.nonnegAtMostPow2,
    nonnegAtMostPow2_of_in _ 33 (hin4.mono le_rfl (by decide)) hsign4,
    hin4.mag_lt (2 ^ 32 + 2 ^ 23) (by decide) (by decide), ⟨el, h4⟩,
    atMostPow2_of_in _ 34 (hindelay.mono (by decide) (by decide)), hdelay,
    atMostPow2_of_in _ 34 (hinoffset.mono (by decide) (by decide)), hoffset⟩

theorem measurementInRange_computeEffect (s : State) :
    MeasurementInRange (computeEffect s).x :=
  measurementInRange_of_times _ (elapsedMs s.csr.msstart s.csr.msrecv) (timeReal_tsToReal _)
    (timeReal_tsToReal _) (timeReal_tsToReal _) rfl rfl rfl

/-- Settles O38: the ranges of R184, and the strict bounds of the two results. -/
theorem computeValuesAreFinite : Obligations.ComputeValuesAreFinite := by
  intro s hs
  obtain ⟨ht1, ht2, ht3, ht4, ht4lt, -, hdelay, -, hoffset, -⟩ :=
    measurementInRange_computeEffect s
  have hin (v : Word) := timeReal_tsToReal v
  exact ⟨computeEffect s, exec_compute_of_validated s hs, ht1, ht2, ht3, ht4, ht4lt, hdelay,
    (roundTripDelay_in _ _ _ _ (hin _) (hin _) (hin _)).mag_lt (2 ^ 34) (by decide) (by decide),
    hoffset,
    (clockOffset_in _ _ _ _ (hin _) (hin _) (hin _)).mag_lt (2 ^ 34) (by decide) (by decide)⟩

/-! ### The corrected time (R185, R189) -/

/-- Below `2^53` seconds the last of the 53 bits counts at most one second. -/
theorem exists_significand_small (p : Word) (h : f64Mag p < 2 ^ 53 * f64One) :
    ∃ m j, m < 2 ^ 53 ∧ j ≤ 1074 ∧ f64Mag p = m * 2 ^ j := by
  have hfrac := f64Frac_lt p
  by_cases hexp : f64Exp p = 0
  · exact ⟨f64Frac p, 0, by omega, by omega, by rw [f64Mag, if_pos hexp, pow_zero, Nat.mul_one]⟩
  · have hmag : f64Mag p = (2 ^ 52 + f64Frac p) * 2 ^ (f64Exp p - 1) := by rw [f64Mag, if_neg hexp]
    refine ⟨2 ^ 52 + f64Frac p, f64Exp p - 1, by omega, ?_, hmag⟩
    by_contra hbig
    have hstep : 2 * f64One ≤ 2 ^ (f64Exp p - 1) := by
      rw [f64One, ← pow_succ']
      exact pow_le_pow_right₀ one_le_two (by omega)
    have hlead : 2 ^ 52 * 2 ^ (f64Exp p - 1) ≤ f64Mag p := by
      rw [hmag]
      exact Nat.mul_le_mul_right _ (by omega)
    omega

theorem f64Units_ONE : f64Units F64_ONE = f64One := by
  rw [f64_ONE_is.units]
  rfl

theorem f64_ONE_in : F64In F64_ONE 1 1 :=
  ⟨f64_ONE_is.finite, by rw [f64Units_ONE, one_mul], by rw [f64Units_ONE, one_mul]⟩

/-- Twice a pattern below `2^53` seconds is a pattern, with the sign changed. -/
theorem exists_neg_double (p : Word) (h : f64Mag p < 2 ^ 53 * f64One) :
    ∃ q, f64Finite q = true ∧ f64Units q = -(2 * f64Units p) := by
  obtain ⟨m, j, hm, hj, hmag⟩ := exists_significand_small p h
  refine exists_pattern _ m (j + 1) ?_ hm (by omega)
  rw [Int.natAbs_neg, Int.natAbs_mul, natAbs_f64Units, hmag, pow_succ]
  exact (Nat.mul_left_comm _ _ _).trans (by ring)

/-- Between `-p` and `1 - p` there is a pattern above `-p`: the one next to `-p`, which is at most
one second away. -/
theorem exists_pattern_above_neg (p : Word) (h : f64Mag p < 2 ^ 53 * f64One)
    (hsign : f64Sign p = false) :
    ∃ q, f64Finite q = true ∧ -f64Units p < f64Units q ∧ f64Units q ≤ f64One - f64Units p := by
  obtain ⟨m, j, hm, hj, hmag⟩ := exists_significand_small p h
  have hunits : f64Units p = m * 2 ^ j := by
    rw [f64Units_of_not_sign p hsign, hmag]
    push_cast
    rfl
  have hone : (0 : Int) < f64One := mod_cast f64One_pos
  rcases Nat.eq_zero_or_pos m with rfl | hpos
  · refine ⟨F64_ONE, f64_ONE_is.finite, ?_, ?_⟩ <;>
      rw [f64Units_ONE, hunits, Nat.cast_zero, zero_mul]
    · rwa [neg_zero]
    · rw [sub_zero]
  · have hstep : (2 : Int) ^ j ≤ f64One := by
      rw [f64One]
      exact_mod_cast pow_le_pow_right₀ one_le_two hj
    have hstepPos : (0 : Int) < 2 ^ j := by positivity
    obtain ⟨q, hq, hqunits⟩ := exists_pattern (-((m - 1 : Nat) * 2 ^ j)) (m - 1) j
      (by rw [Int.natAbs_neg, Int.natAbs_mul, Int.natAbs_natCast, Int.natAbs_pow]; rfl)
      (by omega) (by omega)
    have hq' : f64Units q = 2 ^ j - f64Units p := by
      rw [hqunits, hunits, Nat.cast_sub hpos]
      push_cast
      ring
    exact ⟨q, hq, by rw [hq']; linarith, by rw [hq']; linarith⟩

/-- A difference is not below the negative of what is taken off, where the rest is not negative. -/
theorem neg_le_f64Sub {a b : Word} {la ha lb hb : Int} (hina : F64In a la ha) (hinb : F64In b lb hb)
    (hfin : f64Finite (f64Sub a b) = true) (hnonneg : 0 ≤ f64Units a) :
    -f64Units b ≤ f64Units (f64Sub a b) := by
  have hneg := hinb.neg.finite
  rw [← f64Units_f64Neg]
  exact le_f64Add _ _ _ hina.finite hneg hfin hneg (le_add_of_nonneg_left hnonneg)

/-- A sum is not below its first part where the other is not negative. -/
theorem le_f64Add_left {a b : Word} {la ha lb hb : Int} (hina : F64In a la ha)
    (hinb : F64In b lb hb) (hfin : f64Finite (f64Add a b) = true)
    (hnonneg : 0 ≤ f64Units b) : f64Units a ≤ f64Units (f64Add a b) :=
  le_f64Add _ _ _ hina.finite hinb.finite hfin hina.finite (le_add_of_nonneg_right hnonneg)

/-- The offset is not below `-T4`: T2 and T3 are not negative, and T1 is not above T4. -/
theorem neg_le_clockOffset {t1 t2 t3 t4 : Word} (h1 : TimeReal t1) (h2 : TimeReal t2)
    (h3 : TimeReal t3) (h4 : F64In t4 0 (2 ^ 32 + 4294968)) (hle : f64Units t1 ≤ f64Units t4)
    (hfin : f64Finite (clockOffset t1 t2 t3 t4) = true) :
    -f64Units t4 ≤ f64Units (clockOffset t1 t2 t3 t4) := by
  have hin21 := h2.range.sub h1.range (by decide) (by decide)
  have hin34 := h3.range.sub h4 (by decide) (by decide)
  have hinsum := hin21.add hin34 (by decide) (by decide)
  have h21 := neg_le_f64Sub h2.range h1.range hin21.finite h2.range.nonneg
  have h34 := neg_le_f64Sub h3.range h4 hin34.finite h3.range.nonneg
  obtain ⟨q, hq, hqunits⟩ := exists_neg_double t4 (h4.mag_lt (2 ^ 53) (by decide) (by decide))
  have hsum : -(2 * f64Units t4) ≤ f64Units (f64Add (f64Sub t2 t1) (f64Sub t3 t4)) := by
    rw [← hqunits]
    exact le_f64Add _ _ q hin21.finite hin34.finite hinsum.finite hq (by linarith)
  rw [← f64Units_f64Neg]
  refine le_f64Div_TWO _ _ hinsum.finite h4.neg.finite hfin ?_
  rw [f64Units_f64Neg]
  linarith

/-- `1 + OFFSET + T4 + elapsed`, added left to right, is above zero where OFFSET is not below `-T4`:
`1 + OFFSET` reaches a pattern above `-T4`, so adding T4 gives at least the least positive one. -/
theorem correctedTime_pos {offset t4 : Word} {el : Half} {lo hi : Int}
    (h4 : F64In t4 0 (2 ^ 32 + 4294968)) (hsign : f64Sign t4 = false) (hoffset : F64In offset lo hi)
    (hge : -f64Units t4 ≤ f64Units offset) (hfin1 : f64Finite (f64Add F64_ONE offset) = true)
    (hfin2 : f64Finite (f64Add (f64Add F64_ONE offset) t4) = true)
    (hfin : f64Finite (correctedTime offset t4 el) = true) :
    0 < f64Units (correctedTime offset t4 el) := by
  obtain ⟨q, hq, habove, hbelow⟩ := exists_pattern_above_neg t4
    (h4.mag_lt (2 ^ 53) (by decide) (by decide)) hsign
  have hc1 : f64Units q ≤ f64Units (f64Add F64_ONE offset) :=
    le_f64Add _ _ q f64_ONE_is.finite hoffset.finite hfin1 hq (by rw [f64Units_ONE]; linarith)
  obtain ⟨hleast, hleastUnits⟩ : f64Finite 1#64 = true ∧ f64Units 1#64 = 1 := by decide
  have hc2 : 1 ≤ f64Units (f64Add (f64Add F64_ONE offset) t4) := by
    rw [← hleastUnits]
    refine le_f64Add _ _ _ hfin1 h4.finite hfin2 hleast ?_
    rw [hleastUnits]
    linarith
  have hel := msToReal_in el
  calc (0 : Int) < f64Units (f64Add (f64Add F64_ONE offset) t4) := hc2
    _ ≤ f64Units (correctedTime offset t4 el) :=
      le_f64Add _ _ _ hfin2 hel.finite hfin hfin2 (le_add_of_nonneg_right hel.nonneg)

/-- A time lies in one of the seconds from 0 to `2^32`. -/
theorem TimeReal.exists_second {p : Word} (h : TimeReal p) :
    ∃ n : Int, 0 ≤ n ∧ n ≤ 2 ^ 32 ∧ F64In p n (n + 1) := by
  have hone : (0 : Int) < f64One := mod_cast f64One_pos
  exact ⟨f64Units p / f64One, Int.ediv_nonneg h.range.nonneg hone.le,
    Int.ediv_le_of_le_mul hone h.range.upper, h.range.finite, Int.ediv_mul_le _ hone.ne',
    (Int.lt_ediv_add_one_mul_self _ hone).le⟩

section Corrected
variable (t1 t2 t3 : Word) (el el' : Half)

/-- The offset lies in [-(n + 1 + 2147484), 2^32 - n], where `n` are T1's whole seconds. -/
theorem clockOffset_in_of_seconds (n : Int) (hn : 0 ≤ n) (hn' : n ≤ 2 ^ 32)
    (h1 : F64In t1 n (n + 1)) (h2 : TimeReal t2) (h3 : TimeReal t3) :
    F64In (clockOffset t1 t2 t3 (f64Add t1 (msToReal el))) (-(n + 1 + 2147484)) (2 ^ 32 - n) := by
  have h4 := h1.add (msToReal_in el) (by omega) (by omega)
  have h21 := h2.range.sub h1 (by omega) (by omega)
  have h34 := h3.range.sub h4 (by omega) (by omega)
  have hsum := h21.add h34 (by omega) (by omega)
  exact (hsum.mono (by omega) (by omega)).half (by omega) (by omega)

/-- `1 + OFFSET + T4 + elapsed` is above zero and below `2^33` (R189(b)): T1's whole seconds, which
OFFSET takes off and T4 adds, cancel in the bounds. -/
theorem correctedTime_range (h1 : TimeReal t1) (h2 : TimeReal t2) (h3 : TimeReal t3) :
    F64In (correctedTime (clockOffset t1 t2 t3 (f64Add t1 (msToReal el)))
        (f64Add t1 (msToReal el)) el') (-2147484) (2 ^ 32 + 8589938) ∧
      0 < f64Units (correctedTime (clockOffset t1 t2 t3 (f64Add t1 (msToReal el)))
        (f64Add t1 (msToReal el)) el') := by
  obtain ⟨n, hn, hn', hsecond⟩ := h1.exists_second
  have h4 := clientReceive_in t1 el h1
  have hle := le_f64Add_left h1.range (msToReal_in el) h4.finite (msToReal_in el).nonneg
  have hoffset := clockOffset_in_of_seconds t1 t2 t3 el n hn hn' hsecond h2 h3
  have h4' := hsecond.add (msToReal_in el) (by omega) (by omega)
  have hinc1 := f64_ONE_in.add hoffset (by omega) (by omega)
  have hinc2 := hinc1.add h4' (by omega) (by omega)
  have hinc := hinc2.add (msToReal_in el') (by omega) (by omega)
  exact ⟨hinc.mono (by omega) (by omega),
    correctedTime_pos h4 (clientReceive_sign t1 el h1) hoffset
      (neg_le_clockOffset h1 h2 h3 h4 hle hoffset.finite) hinc1.finite hinc2.finite hinc.finite⟩

end Corrected

/-- SYNC's corrected time from registers that COMPUTE wrote is finite, positive and below `2^33`. -/
theorem correctedTime_inRange (x : DataRegs) (el' : Half) (h : MeasurementInRange x) :
    NonnegAtMostPow2 (correctedTime x.offset x.t4r el') 33 ∧
      f64Mag (correctedTime x.offset x.t4r el') < 2 ^ 33 * f64One ∧
      f64Mag (correctedTime x.offset x.t4r el') ≠ 0 := by
  obtain ⟨h1, h2, h3, -, -, ⟨el, h4⟩, -, -, -, hoffset⟩ := h
  obtain ⟨hrange, hpositive⟩ := correctedTime_range x.t1r x.t2r x.t3r el el'
    (timeReal_of_nonnegAtMostPow2 _ h1) (timeReal_of_nonnegAtMostPow2 _ h2)
    (timeReal_of_nonnegAtMostPow2 _ h3)
  rw [← h4, ← hoffset] at hrange hpositive
  have hlt := hrange.mag_lt (2 ^ 33) (by decide) (by decide)
  have hsign : f64Sign (correctedTime x.offset x.t4r el') = false := by
    by_contra hminus
    rw [Bool.not_eq_false] at hminus
    rw [f64Units, if_pos hminus] at hpositive
    omega
  refine ⟨⟨⟨hrange.finite, hlt.le⟩, hsign⟩, hlt, fun hzero => ?_⟩
  rw [f64Units_of_not_sign _ hsign, hzero] at hpositive
  exact absurd hpositive (lt_irrefl _)

end Sys2Proof.Machine
end

section
/-! PROOF. SYNC and WAKE (43_engine_compute_sync.md R185 to R190): the formulas, O39; the sleep, O40
and O41; the reals' invariant (R184, R189, 45_binary64.md R214), O53; and the reset state's
invariants, O54. -/

namespace Sys2Proof.Machine

open Sys2Proof.Safety

/-! ### The sleep (R189(a)) -/

/-- The fractional part of any finite time, rounded, lies in [0, 1]. -/
theorem fraction_in (c : Word) (hc : f64Finite c = true) : F64In (f64Sub c (f64Floor c)) 0 1 := by
  have hone : (0 : Int) < f64One := mod_cast f64One_pos
  have hfloor := (f64Finite_f64Neg _).trans (f64Floor_exact c hc).1
  rw [f64Sub]
  refine f64Add_in_of_units _ _ 0 1 hc hfloor (by decide) (by decide) ?_ ?_ <;>
    rw [units_sub_floor c hc]
  · rw [zero_mul]
    exact Int.emod_nonneg _ hone.ne'
  · rw [one_mul]
    exact (Int.emod_lt_of_pos _ hone).le

/-- `1 - frac(c)` lies in [0, 1]. -/
theorem remainingSecond_in (c : Word) (hc : f64Finite c = true) : F64In (remainingSecond c) 0 1 :=
  f64_ONE_in.sub (fraction_in c hc) (by decide) (by decide)

theorem remainingSecond_sign (c : Word) (hc : f64Finite c = true) :
    f64Sign (remainingSecond c) = false := by
  have hfrac := fraction_in c hc
  have hupper := hfrac.upper
  rw [one_mul] at hupper
  refine f64Sign_f64Add _ _ f64_ONE_is.finite hfrac.neg.finite f64_ONE_is.sign ?_
  rw [f64Units_ONE, f64Units_f64Neg]
  linarith

/-- A whole second has the whole next second before it. -/
theorem remainingSecond_of_whole (c : Word) (hc : f64Finite c = true)
    (hwhole : (f64One : Int) ∣ f64Units c) : F64Is (remainingSecond c) false f64One := by
  have hfloor := (f64Finite_f64Neg _).trans (f64Floor_exact c hc).1
  obtain ⟨hfinFrac, hfrac⟩ := f64Add_exact c (f64Neg (f64Floor c)) 0 0 hc hfloor
    (by rw [units_sub_floor c hc, Int.emod_eq_zero_of_dvd hwhole]; rfl) (by decide) (by decide)
  rw [units_sub_floor c hc, Int.emod_eq_zero_of_dvd hwhole] at hfrac
  have hsum : f64Units F64_ONE + f64Units (f64Neg (f64Sub c (f64Floor c))) = f64One := by
    rw [f64Units_f64Neg, f64Sub, hfrac, neg_zero, add_zero, f64Units_ONE]
  obtain ⟨hfin, hunits⟩ := f64Add_exact F64_ONE (f64Neg (f64Sub c (f64Floor c))) 1 1074
    f64_ONE_is.finite ((f64Finite_f64Neg _).trans hfinFrac)
    (by rw [hsum, Int.natAbs_natCast, f64One, Nat.one_mul]) (by decide) (by decide)
  refine ⟨hfin, remainingSecond_sign c hc, ?_⟩
  rw [← natAbs_f64Units, remainingSecond, f64Sub, hunits, hsum, Int.natAbs_natCast]

/-- The product with 1000.0 that is rounded. -/
theorem f64Mul_1000 (r : Word) (hr : f64Finite r = true) :
    f64Mul r F64_1000 = f64RN (f64Sign r) (f64Mag r * (1000 * f64One)) f64One := by
  rw [f64Mul_of_finite r F64_1000 hr f64_1000_is.finite, f64_1000_is.sign, f64_1000_is.mag_eq,
    Bool.xor_false]

/-- The milliseconds to the next second lie in [0, 1000]. -/
theorem sleepReal_in (c : Word) (hc : f64Finite c = true) :
    F64In (f64Mul (remainingSecond c) F64_1000) 0 1000 := by
  have hone : (0 : Int) ≤ 1000 * (f64One * f64One) :=
    mul_nonneg (by decide) (mul_nonneg (Int.natCast_nonneg _) (Int.natCast_nonneg _))
  have hpos : (0 : Int) ≤ 1000 * f64One := mul_nonneg (by decide) (Int.natCast_nonneg _)
  have hrem := remainingSecond_in c hc
  have hunits := f64Units_of_not_sign _ (remainingSecond_sign c hc)
  have hlower := hrem.nonneg
  have hupper := hrem.upper
  rw [hunits] at hlower hupper
  rw [f64Mul_1000 _ hrem.finite, remainingSecond_sign c hc]
  refine f64RN_in _ _ _ 0 1000 f64One_pos (by decide) (by decide) ?_ ?_ <;>
    rw [withSign, if_neg Bool.false_ne_true] <;> push_cast
  · rw [zero_mul, mul_zero]
    exact mul_nonneg hlower hpos
  · calc (f64Mag (remainingSecond c) : Int) * (1000 * f64One)
        ≤ 1 * f64One * (1000 * f64One) := mul_le_mul_of_nonneg_right hupper hpos
      _ = f64One * (1000 * f64One) := by rw [one_mul]

/-- The field of a real between 0 and 1000. -/
theorem f64ToUint_le (p : Word) (free : Half) (h : F64In p 0 1000) :
    (f64ToUint p 0 32 free).toNat ≤ 1000 := by
  have hone : (0 : Int) < f64One := mod_cast f64One_pos
  have htoNat := f64ToUint_toNat p 0 32 free h.finite
  rw [pow_zero, one_mul, Int.tdiv_eq_ediv_of_nonneg h.nonneg] at htoNat
  have hle : f64Units p / f64One ≤ 1000 := Int.ediv_le_of_le_mul hone h.upper
  have hnonneg : 0 ≤ f64Units p / f64One := Int.ediv_nonneg h.nonneg hone.le
  omega

theorem sleepLength_le (c : Word) (free : Half) (hc : f64Finite c = true) :
    (sleepLength c free).toNat ≤ 1000 :=
  f64ToUint_le _ free (sleepReal_in c hc)

/-- A whole corrected time sleeps a whole second. -/
theorem sleepLength_of_whole (c : Word) (free : Half) (hc : f64Finite c = true)
    (hwhole : (f64One : Int) ∣ f64Units c) : sleepLength c free = 1000 := by
  have hone : (f64One : Int) ≠ 0 := mod_cast f64One_pos.ne'
  have hrem := remainingSecond_of_whole c hc hwhole
  have his : F64Is (f64Mul (remainingSecond c) F64_1000) false (1000 * 2 ^ 1074) := by
    rw [f64Mul_1000 _ hrem.finite, hrem.sign, hrem.mag_eq]
    exact f64RN_exact false _ _ 1000 1074 f64One_pos (by rw [f64One]) (by decide) (by decide)
  have hunits : f64Units (f64Mul (remainingSecond c) F64_1000) = 1000 * f64One := by
    rw [f64Units_of_not_sign _ his.sign, his.mag_eq, ← f64One]
    push_cast
    rfl
  have htoNat := f64ToUint_toNat (f64Mul (remainingSecond c) F64_1000) 0 32 free his.finite
  rw [hunits, pow_zero, one_mul, Int.mul_tdiv_cancel _ hone] at htoNat
  rw [← BitVec.toNat_inj, sleepLength]
  exact_mod_cast htoNat

/-- Settles O40. -/
theorem sleepIsAtMostOneSecond : Obligations.SleepIsAtMostOneSecond :=
  fun c free hc => ⟨sleepLength_le c free hc, sleepLength_of_whole c free hc⟩

/-! ### SYNC (R185, R188) -/

/-- A finite pattern's field does not depend on the free value. -/
theorem f64ToUint_free (p : Word) (S W : Nat) (free free' : BitVec W) (hp : f64Finite p = true) :
    f64ToUint p S W free = f64ToUint p S W free' := by
  rw [f64ToUint_eq_ofInt p S W free hp, f64ToUint_eq_ofInt p S W free' hp]

theorem exec_sync (s : State) (hstate : s.csr.state = 4) (hsynced : s.csr.synced = false) :
    exec .sync s = .next (syncWith (localClockTerm s) s) :=
  exec_of_enabled .sync s (by simp [enabled, hstate, hsynced])

/-- Counting a free value touches the count only. -/
theorem countFree_eq (p : Word) (n : Nat) (s : State) :
    countFree p n s = { s with freeCount := (countFree p n s).freeCount } := by
  unfold countFree
  split <;> rfl

/-- Settles O39: the fields are `syncWith`'s, and for a finite time no free value is drawn. -/
theorem syncFollowsTheFormulas : Obligations.SyncFollowsTheFormulas := by
  intro s hstate hsynced
  dsimp only
  rw [exec_sync s hstate hsynced, syncWith, countFree_eq]
  refine ⟨_, _, _, rfl, fun hc => ⟨?_, fun free => f64ToUint_free _ _ _ _ _ hc,
    fun free => f64ToUint_free _ _ _ _ _ (sleepReal_in _ hc).finite, ?_⟩⟩
  · have hfin : f64Finite (correctedTime s.x.offset (localClockTerm s)
        (elapsedMs s.csr.mscomp s.env.ms)) = true := hc
    rw [countFree_of_finite _ 2 _ hfin]
  · have htoNat := f64ToUint_toNat (correctedTime s.x.offset (localClockTerm s)
      (elapsedMs s.csr.mscomp s.env.ms)) 0 32 ((Config.freeValue s.freeCount).setWidth 32) hc
    rw [pow_zero, one_mul] at htoNat
    exact htoNat

/-! ### WAKE (R190) -/

/-- Settles O41. -/
theorem wakeEndsTheSleep : Obligations.WakeEndsTheSleep := by
  intro s hstate hsynced
  have hiff : enabled .wake s = true ↔ s.csr.sleepms ≤ s.env.ms - s.csr.mssync := by
    rw [BitVec.le_def]
    exact (wakeEnabled_iff s).trans (by simp [hstate, hsynced, elapsedMs])
  refine ⟨fun hpast => ?_, fun hbefore => ?_⟩
  · rw [exec_of_enabled .wake s (hiff.2 hpast)]
    rfl
  · rw [exec_eq, if_neg (hiff.not.2 hbefore)]

/-! ### The reals' invariant (R184, R189, R214) -/

theorem nonnegAtMostPow2_zero (k : Nat) : NonnegAtMostPow2 0 k := by
  have hzero := zero_is false
  exact ⟨⟨hzero.finite, hzero.mag_eq.le.trans (Nat.zero_le _)⟩, hzero.sign⟩

/-- The formulas over zeros give zeros. -/
theorem measurementInRange_of_zero (x : DataRegs) (h1 : x.t1r = 0) (h2 : x.t2r = 0)
    (h3 : x.t3r = 0) (h4 : x.t4r = 0) (hdelay : x.delay = 0) (hoffset : x.offset = 0) :
    MeasurementInRange x := by
  have htime : TimeReal 0 := timeReal_of_nonnegAtMostPow2 0 (nonnegAtMostPow2_zero 32)
  have hsum : f64Add 0 (msToReal 0) = 0 := by decide +kernel
  have hformulas : roundTripDelay 0 0 0 0 = 0 ∧ clockOffset 0 0 0 0 = 0 := by decide +kernel
  refine measurementInRange_of_times x 0 ?_ ?_ ?_ ?_ ?_ ?_
  · rw [h1]; exact htime
  · rw [h2]; exact htime
  · rw [h3]; exact htime
  · rw [h4, h1, hsum]
  · rw [hdelay, h1, h2, h3, h4, hformulas.1]
  · rw [hoffset, h1, h2, h3, h4, hformulas.2]

/-- While SYNC has not run, zero is a corrected time in range. -/
theorem correctedTimeInRange_of_zero (s : State) (hcorr : s.x.corr = 0)
    (hsynced : s.csr.synced = false) : CorrectedTimeInRange s := by
  have hpos : 0 < 2 ^ 33 * f64One := Nat.mul_pos (by decide) f64One_pos
  rw [CorrectedTimeInRange, hcorr, hsynced]
  exact ⟨nonnegAtMostPow2_zero 33, (zero_is false).mag_eq.trans_lt hpos, nofun⟩

/-- What SYNC writes is in range where COMPUTE's registers are. -/
theorem realsInRange_synced (s : State) (hs : RealsInRange s) :
    RealsInRange (syncWith (localClockTerm s) s) := by
  obtain ⟨hmeasurement, -⟩ := hs
  obtain ⟨hcorr, hlt, hne⟩ :=
    correctedTime_inRange s.x (elapsedMs s.csr.mscomp s.env.ms) hmeasurement
  have ⟨⟨hfin, _⟩, _⟩ := hcorr
  rw [RealsInRange, CorrectedTimeInRange, syncWith_x, syncWith_csr]
  refine ⟨hmeasurement, ⟨hcorr, hlt, fun _ => hne⟩, sleepLength_le _ _ hfin, ?_⟩
  rw [BitVec.toNat_setWidth_of_le (by decide)]
  exact BitVec.isLt _

theorem realsInRange_engine (s t : State) (hmove : EngineMove s t) (hs : RealsInRange s) :
    RealsInRange t := by
  cases hmove with
  | synced => exact realsInRange_synced s hs
  | computed =>
    obtain ⟨-, hcorr, hsleep, htime⟩ := hs
    exact ⟨measurementInRange_computeEffect s, hcorr, hsleep, htime⟩
  | sent | failed | emptyPoll | budgetUsed | accepted | kissed | loaded | woken => exact hs

/-- The clear leaves zeros, and what follows it in GETTIME writes no real register. -/
theorem realsInRange_cleared (s t : State) (hx : t.x = (clearExchange s).x)
    (hsynced : t.csr.synced = false) (hsleep : t.csr.sleepms = 0) : RealsInRange t := by
  refine ⟨?_, correctedTimeInRange_of_zero t ?_ hsynced, ?_, ?_⟩
  · rw [hx]
    exact measurementInRange_of_zero _ rfl rfl rfl rfl rfl rfl
  · rw [hx, clearExchange_x_corr]
  · rw [hsleep]
    decide
  · rw [hx, clearExchange_x_time]
    decide

theorem realsInRange_kept : KeptByMoves RealsInRange where
  same s t h hs := by
    rw [RealsInRange, CorrectedTimeInRange, h.x, h.csr]
    exact hs
  reset := ⟨measurementInRange_of_zero _ rfl rfl rfl rfl rfl rfl,
    correctedTimeInRange_of_zero _ rfl rfl, by decide, by decide⟩
  host s t _ h hs := by
    obtain ⟨_, _, _, _, _, _, -, hcsr, hx⟩ := h.fields
    rw [RealsInRange, CorrectedTimeInRange, hcsr, hx]
    exact hs
  rejected s _ _ := realsInRange_cleared s _ (raiseFailed_x _ _) (by simp) (by simp)
  built s _ _ _ _ := realsInRange_cleared s _ (buildRequest_x _) (by simp) (by simp)
  engine s t hmove hs := realsInRange_engine s t hmove hs

/-- Settles O53: COMPUTE's and SYNC's values are in range whatever the operands, and no other move
writes a real register but with zero. -/
theorem stepKeepsRealsInRange : Obligations.StepKeepsRealsInRange :=
  fun s t hs h => realsInRange_kept.step s t hs h

/-- Settles O54: the invariants hold after reset as each one's proof by moves says. -/
theorem resetHasTheInvariants : Obligations.ResetHasTheInvariants :=
  ⟨errIffFailed_kept.reset, legalCodes_kept.reset, flagsAgree_kept.reset, unreachedZero_kept.reset,
    pollBudget_kept.reset, kissRecord_kept.reset.2, bufferImage_kept.reset, realsInRange_kept.reset⟩

end Sys2Proof.Machine
end
